-- ==== Sys2Proof/Word.lean ====
section
/-! DEFINITION. The word types of the core (00_scope R5, R6): bytes, 16-bit words, register numbers, addresses. -/

namespace Sys2Proof

/-- A byte: a V register, a timer, a memory cell, the immediate `NN` (R7, R20, R33). -/
abbrev Byte := BitVec 8

/-- A 16-bit value: an instruction word, `PC`, `I`, a stack entry (R23, R28, R30, R90). -/
abbrev Half := BitVec 16

/-- A 4-bit register number or key code, `X` or `Y` (R20, R35, R91). -/
abbrev RegIdx := BitVec 4

/-- The 12-bit address operand `NNN` (R91). -/
abbrev Addr12 := BitVec 12

/-- The flag register's number: `VF` is `V[15]` (R8, R22). -/
abbrev VF : RegIdx := 0xF#4

end Sys2Proof
end

