-- ==== Sys2Proof/Syntax.lean ====
section
/-! DEFINITION. The instructions: one constructor per row of spec/opcode_table.json (30_encoding R94), in the table's
order, named as R100 names its variants. The operand fields carry their widths in their types (R91, R93). -/

namespace Sys2Proof

inductive Instr where
  /-- 00E0, CLS (R224) -/
  | cls
  /-- 00EE, RET (R121) -/
  | ret
  /-- 1NNN, JP NNN (R122) -/
  | jp (nnn : Addr12)
  /-- 2NNN, CALL NNN (R123) -/
  | call (nnn : Addr12)
  /-- 3XNN, SE VX, NN (R125) -/
  | seImm (x : RegIdx) (nn : Byte)
  /-- 4XNN, SNE VX, NN (R126) -/
  | sneImm (x : RegIdx) (nn : Byte)
  /-- 5XY0, SE VX, VY (R127) -/
  | seReg (x y : RegIdx)
  /-- 6XNN, LD VX, NN (R152) -/
  | ldImm (x : RegIdx) (nn : Byte)
  /-- 7XNN, ADD VX, NN (R153) -/
  | addImm (x : RegIdx) (nn : Byte)
  /-- 8XY0, LD VX, VY (R154) -/
  | ldReg (x y : RegIdx)
  /-- 8XY1, OR VX, VY (R155) -/
  | orReg (x y : RegIdx)
  /-- 8XY2, AND VX, VY (R156) -/
  | andReg (x y : RegIdx)
  /-- 8XY3, XOR VX, VY (R157) -/
  | xorReg (x y : RegIdx)
  /-- 8XY4, ADD VX, VY (R158) -/
  | addReg (x y : RegIdx)
  /-- 8XY5, SUB VX, VY (R159) -/
  | sub (x y : RegIdx)
  /-- 8XY6, SHR VX, VY (R161) -/
  | shr (x y : RegIdx)
  /-- 8XY7, SUBN VX, VY (R160) -/
  | subn (x y : RegIdx)
  /-- 8XYE, SHL VX, VY (R162) -/
  | shl (x y : RegIdx)
  /-- 9XY0, SNE VX, VY (R128) -/
  | sneReg (x y : RegIdx)
  /-- ANNN, LD I, NNN (R190) -/
  | ldI (nnn : Addr12)
  /-- BNNN, JP V0, NNN (R124) -/
  | jpV0 (nnn : Addr12)
  /-- CXNN, RND VX, NN (R163) -/
  | rnd (x : RegIdx) (nn : Byte)
  /-- DXYN, DRW VX, VY, N (R225) -/
  | drw (x y : RegIdx) (n : BitVec 4)
  /-- EX9E, SKP VX (R252) -/
  | skp (x : RegIdx)
  /-- EXA1, SKNP VX (R253) -/
  | sknp (x : RegIdx)
  /-- FX07, LD VX, DT (R242) -/
  | ldFromDt (x : RegIdx)
  /-- FX0A, LD VX, K (R254) -/
  | ldKey (x : RegIdx)
  /-- FX15, LD DT, VX (R243) -/
  | ldDt (x : RegIdx)
  /-- FX18, LD ST, VX (R244) -/
  | ldSt (x : RegIdx)
  /-- FX1E, ADD I, VX (R191) -/
  | addI (x : RegIdx)
  /-- FX29, LD F, VX (R192) -/
  | ldF (x : RegIdx)
  /-- FX33, LD B, VX (R193) -/
  | ldB (x : RegIdx)
  /-- FX55, LD [I], VX (R194) -/
  | store (x : RegIdx)
  /-- FX65, LD VX, [I] (R195) -/
  | load (x : RegIdx)
  deriving DecidableEq, Repr

end Sys2Proof
end

