-- ==== Sys2Proof/Decode.lean ====
section
/-! DEFINITION. The decoder of 30_encoding R100, total on every 16-bit word and on any bytes, and after it the encoder,
written from the same table (R94). A word that selects no row is rejected by name (R95, R96). -/

namespace Sys2Proof

/-- Why bytes are no instruction. -/
inductive DecodeError where
  /-- the word selects no row of R94 (R95); every SYS word among them (R96) -/
  | unknownOpcode (w : Half)
  /-- fewer than the two bytes of an instruction (R90) -/
  | truncated
  deriving DecidableEq, Repr

/-- The field `op`, bits 15 to 12 (R91). -/
def fieldOp (w : Half) : BitVec 4 := w.extractLsb' 12 4
/-- The field `X`, bits 11 to 8 (R91). -/
def fieldX (w : Half) : RegIdx := w.extractLsb' 8 4
/-- The field `Y`, bits 7 to 4 (R91). -/
def fieldY (w : Half) : RegIdx := w.extractLsb' 4 4
/-- The field `N`, bits 3 to 0 (R91). -/
def fieldN (w : Half) : BitVec 4 := w.extractLsb' 0 4
/-- The field `NN`, bits 7 to 0 (R91). -/
def fieldNN (w : Half) : Byte := w.extractLsb' 0 8
/-- The field `NNN`, bits 11 to 0 (R91). -/
def fieldNNN (w : Half) : Addr12 := w.extractLsb' 0 12

/-- Group 0: only the two exact words 00E0 and 00EE (R94, R96). -/
def decodeGroup0 (w : Half) : Except DecodeError Instr :=
  if w = 0x00E0#16 then .ok .cls
  else if w = 0x00EE#16 then .ok .ret
  else .error (.unknownOpcode w)

/-- Group 8: the minor opcode is `N` (R100). -/
def decodeGroup8 (w : Half) : Except DecodeError Instr :=
  let x := fieldX w
  let y := fieldY w
  match (fieldN w).toNat with
  | 0x0 => .ok (.ldReg x y)
  | 0x1 => .ok (.orReg x y)
  | 0x2 => .ok (.andReg x y)
  | 0x3 => .ok (.xorReg x y)
  | 0x4 => .ok (.addReg x y)
  | 0x5 => .ok (.sub x y)
  | 0x6 => .ok (.shr x y)
  | 0x7 => .ok (.subn x y)
  | 0xE => .ok (.shl x y)
  | _ => .error (.unknownOpcode w)

/-- Group E: the minor opcode is `NN` (R100). -/
def decodeGroupE (w : Half) : Except DecodeError Instr :=
  let x := fieldX w
  match (fieldNN w).toNat with
  | 0x9E => .ok (.skp x)
  | 0xA1 => .ok (.sknp x)
  | _ => .error (.unknownOpcode w)

/-- Group F: the minor opcode is `NN` (R100). -/
def decodeGroupF (w : Half) : Except DecodeError Instr :=
  let x := fieldX w
  match (fieldNN w).toNat with
  | 0x07 => .ok (.ldFromDt x)
  | 0x0A => .ok (.ldKey x)
  | 0x15 => .ok (.ldDt x)
  | 0x18 => .ok (.ldSt x)
  | 0x1E => .ok (.addI x)
  | 0x29 => .ok (.ldF x)
  | 0x33 => .ok (.ldB x)
  | 0x55 => .ok (.store x)
  | 0x65 => .ok (.load x)
  | _ => .error (.unknownOpcode w)

/-- `decode(w)` of R100. -/
def decode (w : Half) : Except DecodeError Instr :=
  match (fieldOp w).toNat with
  | 0x0 => decodeGroup0 w
  | 0x1 => .ok (.jp (fieldNNN w))
  | 0x2 => .ok (.call (fieldNNN w))
  | 0x3 => .ok (.seImm (fieldX w) (fieldNN w))
  | 0x4 => .ok (.sneImm (fieldX w) (fieldNN w))
  | 0x5 => if fieldN w = 0#4 then .ok (.seReg (fieldX w) (fieldY w)) else .error (.unknownOpcode w)
  | 0x6 => .ok (.ldImm (fieldX w) (fieldNN w))
  | 0x7 => .ok (.addImm (fieldX w) (fieldNN w))
  | 0x8 => decodeGroup8 w
  | 0x9 => if fieldN w = 0#4 then .ok (.sneReg (fieldX w) (fieldY w)) else .error (.unknownOpcode w)
  | 0xA => .ok (.ldI (fieldNNN w))
  | 0xB => .ok (.jpV0 (fieldNNN w))
  | 0xC => .ok (.rnd (fieldX w) (fieldNN w))
  | 0xD => .ok (.drw (fieldX w) (fieldY w) (fieldN w))
  | 0xE => decodeGroupE w
  | _ => decodeGroupF w

/-- The word of two bytes, big-endian: the byte at the lower address is bits 15 to 8 (R68). -/
def wordOfBytes (hi lo : Byte) : Half := hi ++ lo

/-- The instruction at the head of a list of bytes, and the bytes after it (R90). -/
def decodeBytes : List Byte → Except DecodeError (Instr × List Byte)
  | hi :: lo :: rest => (decode (wordOfBytes hi lo)).map (fun i => (i, rest))
  | _ => .error .truncated

/-- The bytes of an instruction whose bits are `w`, as memory holds them: one word, high byte first (R68, R90). -/
def tableBytes (nbits w : Nat) : List Byte :=
  let word : Half := BitVec.ofNat 16 (w % 2 ^ nbits)
  [word.extractLsb' 8 8, word.extractLsb' 0 8]

/-- What the decoder reads from an instruction whose bits are numbered as spec/opcode_table.json numbers them. -/
def decodeTableWord (nbits w : Nat) : Option Instr :=
  match decodeBytes (tableBytes nbits w) with
  | .ok (i, _) => some i
  | .error _ => none

/-- A word `op X NN` (R91). -/
def wordXNN (op : BitVec 4) (x : RegIdx) (nn : Byte) : Half := op ++ x ++ nn
/-- A word `op X Y N` (R91). -/
def wordXYN (op : BitVec 4) (x y : RegIdx) (n : BitVec 4) : Half := op ++ x ++ y ++ n
/-- A word `op NNN` (R91). -/
def wordNNN (op : BitVec 4) (nnn : Addr12) : Half := op ++ nnn

/-- The encoder: the word of each row of R94. -/
def encode : Instr → Half
  | .cls => 0x00E0#16
  | .ret => 0x00EE#16
  | .jp nnn => wordNNN 0x1#4 nnn
  | .call nnn => wordNNN 0x2#4 nnn
  | .seImm x nn => wordXNN 0x3#4 x nn
  | .sneImm x nn => wordXNN 0x4#4 x nn
  | .seReg x y => wordXYN 0x5#4 x y 0x0#4
  | .ldImm x nn => wordXNN 0x6#4 x nn
  | .addImm x nn => wordXNN 0x7#4 x nn
  | .ldReg x y => wordXYN 0x8#4 x y 0x0#4
  | .orReg x y => wordXYN 0x8#4 x y 0x1#4
  | .andReg x y => wordXYN 0x8#4 x y 0x2#4
  | .xorReg x y => wordXYN 0x8#4 x y 0x3#4
  | .addReg x y => wordXYN 0x8#4 x y 0x4#4
  | .sub x y => wordXYN 0x8#4 x y 0x5#4
  | .shr x y => wordXYN 0x8#4 x y 0x6#4
  | .subn x y => wordXYN 0x8#4 x y 0x7#4
  | .shl x y => wordXYN 0x8#4 x y 0xE#4
  | .sneReg x y => wordXYN 0x9#4 x y 0x0#4
  | .ldI nnn => wordNNN 0xA#4 nnn
  | .jpV0 nnn => wordNNN 0xB#4 nnn
  | .rnd x nn => wordXNN 0xC#4 x nn
  | .drw x y n => wordXYN 0xD#4 x y n
  | .skp x => wordXNN 0xE#4 x 0x9E#8
  | .sknp x => wordXNN 0xE#4 x 0xA1#8
  | .ldFromDt x => wordXNN 0xF#4 x 0x07#8
  | .ldKey x => wordXNN 0xF#4 x 0x0A#8
  | .ldDt x => wordXNN 0xF#4 x 0x15#8
  | .ldSt x => wordXNN 0xF#4 x 0x18#8
  | .addI x => wordXNN 0xF#4 x 0x1E#8
  | .ldF x => wordXNN 0xF#4 x 0x29#8
  | .ldB x => wordXNN 0xF#4 x 0x33#8
  | .store x => wordXNN 0xF#4 x 0x55#8
  | .load x => wordXNN 0xF#4 x 0x65#8

/-- The bytes of an instruction, in memory order (R68). -/
def encodeBytes (i : Instr) : List Byte := [(encode i).extractLsb' 8 8, (encode i).extractLsb' 0 8]

end Sys2Proof
end

