-- ==== Sys2Proof/Config.lean ====
section
/-! DEFINITION. What is fixed for one core: the host's configuration (10_state R37), the parameters a model takes
(00_scope R5), and the free values the spec leaves open (R11, R289, R290). The decided values stand in
Sys2Proof/Machine/Params.lean. -/

namespace Sys2Proof

/-- `SHIFT_SOURCE` of R5: the register 8XY6 and 8XYE read (D10). -/
inductive ShiftSource where
  | vy
  | vx
  deriving DecidableEq, Repr

/-- `BULK_INDEX_INCREMENT` of R5 and R196: what FX55 and FX65 add to `I` (D11). -/
inductive BulkIncrement where
  | xPlus1
  | x
  | none
  deriving DecidableEq, Repr

/-- `DRAW_ZERO_HEIGHT` of R5: what DXY0 does (R225, D18). -/
inductive ZeroHeight where
  | refuse
  | noRows
  deriving DecidableEq, Repr

/-- `NIBBLE_OPERAND_POLICY` of R5: what EX9E, EXA1 and FX29 do with a value above 0xF (D19). -/
inductive NibblePolicy where
  | refuse
  | mask
  deriving DecidableEq, Repr

/-- `UNINIT_POLICY` of R5 and R44: what reading state that nothing has written does (D6). -/
inductive UninitPolicy where
  | zero
  | refuse
  deriving DecidableEq, Repr

/-- The parameters of R5 that the spec lets a model take as arguments (R46). The state carries them and no step
changes them. DESIGN CHOICE (log 1), safe: a statement about every state holds for every value of them. -/
structure Params where
  /-- `LOAD_OFFSET` (D2) -/
  loadOffset : Nat
  /-- `FONT_BASE` (D3) -/
  fontBase : Nat
  /-- `PROTECT_LOW_MEMORY` (D4) -/
  protectLow : Bool
  /-- `SHIFT_SOURCE` (D10) -/
  shiftSource : ShiftSource
  /-- `BULK_INDEX_INCREMENT` (D11) -/
  bulkIncrement : BulkIncrement
  /-- `LOGIC_CLEARS_VF` (D12) -/
  logicClearsVF : Bool
  /-- `DRAW_ZERO_HEIGHT` (D18) -/
  zeroHeight : ZeroHeight
  /-- `NIBBLE_OPERAND_POLICY` (D19) -/
  nibblePolicy : NibblePolicy
  /-- `UNINIT_POLICY` (D6) -/
  uninit : UninitPolicy
  deriving DecidableEq, Repr

/-- `CONFIG` of R37, as a core that exists holds it: both rates are integers. The timer rate is the constant
`Sys2Proof.Machine.timerRateHz`. The positive float `beep_frequency_hz` is held exactly, as a rational:
DESIGN CHOICE (log 12), safe. -/
structure HostConfig where
  instructionRateHz : Nat
  frameRateHz : Nat
  beepFrequencyHz : Rat
  gradientColoring : Bool
  deriving DecidableEq, Repr

/-- What a host may ask `create` for (R304): the rates may be any number, since a non-integer rate is refused. -/
structure ConfigRequest where
  instructionRateHz : Rat
  frameRateHz : Rat
  beepFrequencyHz : Rat
  gradientColoring : Bool
  deriving DecidableEq, Repr

/-- FREE VALUE: the random byte of the n-th CXNN (R11, R163, D16; log 5). No body: nothing can prove a value of it. -/
opaque Config.draw : Nat → Byte

/-- FREE VALUE: which of several slots with equal deadlines goes first, at the n-th tie (R290, D28; log 6). The model
takes it modulo the number of tied slots, so every order is admitted. No body. -/
opaque Config.tieChoice : Nat → Nat

/-- FREE VALUE: whether the n-th frame slot calls the audio collaborator before it sends frame-ready. R289 names both
signals and states no order between them, and D1 makes each an event of its own (log 29). No body. -/
opaque Config.audioFirst : Nat → Bool

end Sys2Proof
end

