-- ==== Sys2Proof/Machine/Params.lean ====
section
/-! DEFINITION. The values the spec decides for the parameters (00_scope R5), the default configuration (10_state R37),
the sizes and the font (20_memory R60, R64). -/

namespace Sys2Proof.Machine

/-- `MEM_SIZE` (R5, R60). -/
def memSize : Nat := 4096

/-- `STACK_DEPTH` (R5, R30). -/
def stackDepth : Nat := 16

/-- `TIMER_RATE_HZ`: hardwired (R5, R37, C10). -/
def timerRateHz : Nat := 60

/-- The decided values of R5 (D2, D3, D4, D6, D10, D11, D12, D18, D19): the spec's own choices. DESIGN CHOICE
(log 15 to 21), unsafe for a statement that rests on one of them; every other value is modelled too. -/
def decidedParams : Params where
  loadOffset := 0x200
  fontBase := 0x050
  protectLow := true
  shiftSource := .vy
  bulkIncrement := .xPlus1
  logicClearsVF := false
  zeroHeight := .refuse
  nibblePolicy := .refuse
  uninit := .zero

/-- The defaults R37 records (unaudited, D36; log 2); `gradient_coloring` has none, DESIGN CHOICE false, unsafe. -/
def defaultConfig : HostConfig where
  instructionRateHz := 1000
  frameRateHz := 60
  beepFrequencyHz := 553
  gradientColoring := false

/-- The font: 16 glyphs of 5 bytes, digits 0 to F in order (R64). -/
def fontBytes : List Byte :=
  [0xF0#8, 0x90#8, 0x90#8, 0x90#8, 0xF0#8] ++ [0x20#8, 0x60#8, 0x20#8, 0x20#8, 0x70#8] ++
  [0xF0#8, 0x10#8, 0xF0#8, 0x80#8, 0xF0#8] ++ [0xF0#8, 0x10#8, 0xF0#8, 0x10#8, 0xF0#8] ++
  [0x90#8, 0x90#8, 0xF0#8, 0x10#8, 0x10#8] ++ [0xF0#8, 0x80#8, 0xF0#8, 0x10#8, 0xF0#8] ++
  [0xF0#8, 0x80#8, 0xF0#8, 0x90#8, 0xF0#8] ++ [0xF0#8, 0x10#8, 0x20#8, 0x40#8, 0x40#8] ++
  [0xF0#8, 0x90#8, 0xF0#8, 0x90#8, 0xF0#8] ++ [0xF0#8, 0x90#8, 0xF0#8, 0x10#8, 0xF0#8] ++
  [0xF0#8, 0x90#8, 0xF0#8, 0x90#8, 0x90#8] ++ [0xE0#8, 0x90#8, 0xE0#8, 0x90#8, 0xE0#8] ++
  [0xF0#8, 0x80#8, 0x80#8, 0x80#8, 0xF0#8] ++ [0xE0#8, 0x90#8, 0x90#8, 0x90#8, 0xE0#8] ++
  [0xF0#8, 0x80#8, 0xF0#8, 0x80#8, 0xF0#8] ++ [0xF0#8, 0x80#8, 0xF0#8, 0x80#8, 0x80#8]

/-- Whether an address lies in the font's 80 bytes (R63). -/
def inFont (p : Params) (a : Nat) : Bool := decide (p.fontBase ≤ a) && decide (a < p.fontBase + 80)

/-- What memory holds at an address that nothing has written: the font in its place, 0x00 elsewhere (R43, R64, R331,
D3, D5; log 4). This is what an unlisted address reads as. -/
def resetByte (p : Params) (a : Nat) : Byte :=
  if inFont p a then fontBytes.getD (a - p.fontBase) 0x00#8 else 0x00#8

end Sys2Proof.Machine
end

