-- ==== Sys2Proof/Machine/State.lean ====
section
/-! DEFINITION. The state of the core as plain data (10_state R20 to R46), the reasons a step can stop, and the state
after reset (R43, R331). -/

namespace Sys2Proof.Machine

/-- A fault kind with its info value (R39, R270): exactly five kinds. -/
inductive FaultCause where
  /-- the lowest failing address (R271) -/
  | addressOutOfRange (a : Nat)
  /-- raised only by CALL (R272) -/
  | stackOverflow
  /-- raised only by RET (R273) -/
  | stackUnderflow
  /-- the word that selects no row (R274) -/
  | unknownOpcode (w : Half)
  /-- the length of the image (R275) -/
  | programTooLarge (len : Nat)
  deriving DecidableEq, Repr

/-- The fault record `FAULT` (R39, R276): the kind with its info, and the program counter at the time of the fault. -/
structure FaultRecord where
  cause : FaultCause
  pc : Half
  deriving DecidableEq, Repr

/-- The reasons of `REFUSED` (R279). -/
inductive RefuseReason where
  /-- DXY0 under `DRAW_ZERO_HEIGHT = refuse` (R225) -/
  | zeroHeightSprite
  /-- `V[X] > 0xF` in EX9E, EXA1 under `NIBBLE_OPERAND_POLICY = refuse` (R252, R253) -/
  | keyIndexOutOfRange
  /-- `V[X] > 0xF` in FX29 under `NIBBLE_OPERAND_POLICY = refuse` (R192) -/
  | fontDigitOutOfRange
  /-- a read of state that nothing has written under `UNINIT_POLICY = refuse` (R44) -/
  | uninitialisedRead
  deriving DecidableEq, Repr

/-- Why a step answers a fault: the machine has stopped for good. -/
inductive Fault where
  /-- Raised by `step` when the core is `Halted` and its host makes no further call: no slot is processed any more
  (R280, R293). It carries the fault record. Safe: the machine makes no move here (U14). -/
  | halted (record : Option FaultRecord)
  deriving DecidableEq, Repr

/-- Why a step is refused. -/
inductive Refusal where
  /-- An arm of `exec` without a meaning; no arm is one. Safe. -/
  | notModelled (mnemonic : String)
  /-- Raised by `step` when `REFUSED` is set and the host makes no further call: the spec gives the case no meaning and
  processes no further slot (R279, R293). Safe. -/
  | noMeaning (why : RefuseReason)
  deriving DecidableEq, Repr

/-- The framebuffer: 32 rows of 64 pixels, row 0 on top, column 0 at the left; true is set (R34, R220). -/
abbrev Framebuffer := Vector (Vector Bool 64) 32

/-- Memory as (address, byte) cells, in the canonical form `Memory.wf`. -/
abbrev Memory := List Host.Cell

/-- The scheduler state `STATE` (R38, R284). -/
inductive RunState where
  | running
  /-- waiting for a key press, which goes to `V[x]` -/
  | waitingForKey (x : RegIdx)
  | halted
  deriving DecidableEq, Repr

/-- A call of the host that reaches a running core (R286, R295, R303). -/
inductive HostCall where
  /-- `advance_time(num/den)` seconds; two naturals, so that time never moves backwards (R286, R308; log 12) -/
  | advanceTime (num den : Nat)
  /-- `set_pressed(k, p)` (R250) -/
  | setPressed (k : RegIdx) (p : Bool)
  deriving DecidableEq, Repr

/-- A signal the core sends to its host (R289, R301, R302, R306). -/
inductive Signal where
  /-- frame-ready, with the renderer's read-only view of `fb` (R226, R301) -/
  | frameReady (view : Framebuffer)
  /-- the call of the audio collaborator with `beep_frequency_hz` (R302) -/
  | audio (beepHz : Rat)
  /-- the fault report (R306) -/
  | faultReport (record : FaultRecord)
  deriving DecidableEq, Repr

/-- The model's own record of what has been written, read only under `UNINIT_POLICY = refuse` (R44; log 13). -/
structure Written where
  v : Vector Bool 16
  i : Bool
  dt : Bool
  /-- the length of the loaded program: its bytes count as written by the loader -/
  programLength : Nat
  /-- the addresses instructions have stored to, rising, no repeats -/
  mem : List Nat
  deriving DecidableEq, Repr

/-- The whole state of the core. -/
structure State where
  /-- `V0` to `VF` (R20) -/
  v : Vector Byte 16
  /-- the index register `I` (R28) -/
  i : Half
  /-- the program counter (R23) -/
  pc : Half
  /-- the stack pointer: how many entries the stack holds (R29) -/
  sp : Byte
  /-- the call stack (R30) -/
  stack : Vector Half 16
  /-- the delay timer (R33) -/
  dt : Byte
  /-- the sound timer (R33) -/
  st : Byte
  /-- the framebuffer (R34) -/
  fb : Framebuffer
  /-- the key bitmap (R35) -/
  keys : Vector Bool 16
  /-- memory (R60) -/
  mem : Memory
  /-- `STATE` (R38) -/
  ctl : RunState
  /-- `FAULT` (R39) -/
  fault : Option FaultRecord
  /-- `REFUSED` (R40) -/
  refused : Option RefuseReason
  /-- `CONFIG` (R37); no step changes it -/
  config : HostConfig
  /-- the parameters of R5; no step changes them (R46; log 1) -/
  params : Params
  /-- the elapsed time `T` in seconds (R41) -/
  time : Rat
  /-- instruction slots processed (R41) -/
  nInstr : Nat
  /-- tick slots processed (R41) -/
  nTick : Nat
  /-- frame slots processed (R41) -/
  nFrame : Nat
  /-- the model's own: random bytes taken so far (log 5) -/
  draws : Nat
  /-- the model's own: ties ordered so far (log 6) -/
  ties : Nat
  /-- the model's own: the host's calls still to come, oldest first (R295; log 10) -/
  calls : List HostCall
  /-- the model's own: the signals sent so far, newest first (log 11) -/
  sent : List Signal
  /-- the model's own: what has been written (R44; log 13) -/
  written : Written
  deriving DecidableEq, Repr

/-- Nothing has been written yet (R44). -/
def Written.nothing : Written where
  v := Vector.replicate 16 false
  i := false
  dt := false
  programLength := 0
  mem := []

/-- Steps 2 to 4 of the reset sequence (R331) for given parameters and configuration: the values of R43. Its `ctl` is
what the load of the image sets when the image fits (R300). -/
def State.fresh (p : Params) (c : HostConfig) : State where
  v := Vector.replicate 16 0x00#8
  i := 0x0000#16
  pc := BitVec.ofNat 16 p.loadOffset
  sp := 0x00#8
  stack := Vector.replicate 16 0x0000#16
  dt := 0x00#8
  st := 0x00#8
  fb := Vector.replicate 32 (Vector.replicate 64 false)
  keys := Vector.replicate 16 false
  mem := []
  ctl := .running
  fault := none
  refused := none
  config := c
  params := p
  time := 0
  nInstr := 0
  nTick := 0
  nFrame := 0
  draws := 0
  ties := 0
  calls := []
  sent := []
  written := Written.nothing

/-- The core right after reset (R43): created with the default configuration, the empty image loaded (R332). -/
def State.reset : State := State.fresh decidedParams defaultConfig

end Sys2Proof.Machine
end

