-- ==== Sys2Proof/Machine/Ops.lean ====
section
/-! DEFINITION. The named operations over registers, the stack, memory, the program counter, the timers, and the two
ways a step ends the run: the fault entry and the refusal mark. Every read and write of state goes through these. -/

namespace Sys2Proof.Machine

/-- What a meaning answers. -/
abbrev Result := Host.Outcome State Fault Refusal

/-- Read `V[r]` (R8, R20). -/
def State.reg (s : State) (r : RegIdx) : Byte := s.v[r.toNat]'r.isLt

/-- Write `V[r]`; no register is hard-wired (R8, R20). -/
def State.setReg (s : State) (r : RegIdx) (b : Byte) : State := { s with v := s.v.set r.toNat b r.isLt }

/-- `PCnext`: `(PC + 2) mod 4096` (R25, R27). -/
def State.pcNext (s : State) : Half := BitVec.ofNat 16 ((s.pc.toNat + 2) % memSize)

/-- Where a taken skip goes: `(PC + 4) mod 4096` (R25). -/
def State.pcSkip (s : State) : Half := BitVec.ofNat 16 ((s.pc.toNat + 4) % memSize)

/-- Set `PC`. -/
def State.setPc (s : State) (a : Half) : State := { s with pc := a }

/-- `PC <- PCnext`, the last action of most instructions (R12, R26). -/
def State.advance (s : State) : State := s.setPc s.pcNext

/-- The last action of a skip: over one word if the condition holds (R26, R120). -/
def State.skipIf (s : State) (c : Bool) : State := s.setPc (if c then s.pcSkip else s.pcNext)

/-- Set `I`. -/
def State.setI (s : State) (a : Half) : State := { s with i := a }

/-- The fault entry (R276): `FAULT` takes the kind, the program counter and the info; `STATE` becomes `Halted`; the
fault is reported to the host (R306). Nothing else changes (R277, D22; log 7). There is no return from it (R280). -/
def State.raise (s : State) (c : FaultCause) : State :=
  { s with fault := some ⟨c, s.pc⟩, ctl := .halted, sent := .faultReport ⟨c, s.pc⟩ :: s.sent }

/-- `refuse R` (R279): `REFUSED` takes the reason; `FAULT` stays empty and `STATE` stays as it is (R284; log 8). -/
def State.refuse (s : State) (r : RefuseReason) : State := { s with refused := some r }

/-- Whether no further slot is processed: the core is `Halted` or `REFUSED` is set (R293). -/
def State.stopped (s : State) : Bool := decide (s.ctl = .halted) || s.refused.isSome

/-- The byte listed at an address, if one is. -/
def lookup : Memory → Nat → Option Byte
  | [], _ => none
  | (k, b) :: m, a => if k = a then some b else lookup m a

/-- Write a byte to memory, where `unlisted` is what the address reads as when it is not listed: the list stays sorted
by address and never lists that value. -/
def memWrite (unlisted : Byte) : Memory → Nat → Byte → Memory
  | [], a, b => if b = unlisted then [] else [(a, b)]
  | (k, c) :: m, a, b =>
    if a < k then (if b = unlisted then (k, c) :: m else (a, b) :: (k, c) :: m)
    else if a = k then (if b = unlisted then m else (a, b) :: m)
    else (k, c) :: memWrite unlisted m a b

/-- The canonical form: addresses strictly rising, every one in memory, no entry equal to what an unlisted address
reads as. -/
abbrev Memory.wf (p : Params) (m : Memory) : Prop :=
  m.Pairwise (fun c d => c.1 < d.1) ∧ ∀ c ∈ m, c.1 < memSize ∧ c.2 ≠ resetByte p c.1

/-- Read the byte at an address (R9); the range check is `badRead`'s. A read changes nothing (R73). -/
def State.readByte (s : State) (a : Nat) : Byte := (lookup s.mem a).getD (resetByte s.params a)

/-- Write the byte at an address and nothing else (R9, R73); the checks are `badWrite`'s. -/
def State.writeByte (s : State) (a : Nat) (b : Byte) : State :=
  { s with mem := memWrite (resetByte s.params a) s.mem a b }

/-- Read `n` bytes at rising addresses. -/
def State.readBytes (s : State) (a n : Nat) : List Byte := (List.range n).map (fun k => s.readByte (a + k))

/-- Write bytes at rising addresses, the first at `a`. -/
def State.writeBytes (s : State) (a : Nat) : List Byte → State
  | [] => s
  | b :: bs => State.writeBytes (s.writeByte a b) (a + 1) bs

/-- Whether a read of an address fails: above 4095 (R67). -/
def readFails (a : Nat) : Bool := decide (memSize ≤ a)

/-- Whether an instruction's write to an address fails: above 4095 (R67), or below `LOAD_OFFSET` under
`PROTECT_LOW_MEMORY` (R66). One check per address (R278). -/
def writeFails (p : Params) (a : Nat) : Bool :=
  decide (memSize ≤ a) || (p.protectLow && decide (a < p.loadOffset))

/-- The lowest of the addresses `a .. a+n-1` that fails (R72); the addresses are exact, not wrapped (R81). -/
def firstFailing (fails : Nat → Bool) (a n : Nat) : Option Nat := ((List.range n).map (a + ·)).find? fails

/-- The lowest failing address of a read of `n` bytes at `a`. -/
def State.badRead (_ : State) (a n : Nat) : Option Nat := firstFailing readFails a n

/-- The lowest failing address of a write of `n` bytes at `a`. -/
def State.badWrite (s : State) (a n : Nat) : Option Nat := firstFailing (writeFails s.params) a n

/-- Every address is checked before any state changes (R72): with a failing address the step raises
`AddressOutOfRange` from `s`, else it goes on to `t`. -/
def State.checked (s : State) (bad : Option Nat) (t : State) : State :=
  match bad with
  | some a => s.raise (.addressOutOfRange a)
  | none => t

/-- Set the stack's entries and pointer. -/
def State.setStack (s : State) (entries : Vector Half 16) (sp : Byte) : State := { s with stack := entries, sp := sp }

/-- Push a return address (R31). The overflow test is `16 ≤ SP`: R29 says that 17 to 255 are never held (log 22). -/
def State.push (s : State) (a : Half) : Option State :=
  if s.sp.toNat < stackDepth then
    some (s.setStack (s.stack.set (s.sp.toNat % 16) a (Nat.mod_lt _ (by decide))) (s.sp + 1#8))
  else none

/-- Pop a return address (R32). The entry number is taken modulo 16, which matters only above 16 (R29; log 22). -/
def State.pop (s : State) : Option (Half × State) :=
  if s.sp = 0x00#8 then none
  else some (s.stack[(s.sp.toNat - 1) % 16]'(Nat.mod_lt _ (by decide)), s.setStack s.stack (s.sp - 1#8))

/-- `tick()` (R241): each timer that is not zero goes down by one. -/
def State.tick (s : State) : State :=
  { s with dt := if s.dt = 0x00#8 then s.dt else s.dt - 1#8,
           st := if s.st = 0x00#8 then s.st else s.st - 1#8 }

/-- `set_delay(v)` (R240). -/
def State.setDelay (s : State) (b : Byte) : State := { s with dt := b }

/-- `set_sound(v)` (R240). -/
def State.setSound (s : State) (b : Byte) : State := { s with st := b }

/-- The output `beep_active`: the sound timer is not zero (R45, R245). -/
def State.beepActive (s : State) : Bool := decide (s.st ≠ 0x00#8)

/-- `is_pressed(k)` (R251). -/
def State.isPressed (s : State) (k : RegIdx) : Bool := s.keys[k.toNat]'k.isLt

/-- Write one bit of the key bitmap (R250). -/
def State.setKey (s : State) (k : RegIdx) (p : Bool) : State := { s with keys := s.keys.set k.toNat p k.isLt }

/-- `draw()`: a free random byte, a fresh one each time (R11, R163; log 5). -/
def State.draw (s : State) : Byte × State := (Config.draw s.draws, { s with draws := s.draws + 1 })

end Sys2Proof.Machine
end

