-- ==== Sys2Proof/Machine/Flags.lean ====
section
/-! DEFINITION. The flag conditions of 10_state R36: the only flag is `VF`, and an instruction writes it after its
result (R22, R151). -/

namespace Sys2Proof.Machine

/-- `bool(c)`: 1 if the condition holds, else 0 (R7). -/
def flagByte (c : Bool) : Byte := if c then 0x01#8 else 0x00#8

/-- Carry of 8XY4: the exact sum is above 255 (R158). -/
def carryFlag (a b : Byte) : Byte := flagByte (decide (a.toNat + b.toNat > 255))

/-- No borrow of `a - b`: 1 when `a >= b` (R150, R159, R160). -/
def noBorrowFlag (a b : Byte) : Byte := flagByte (decide (a.toNat ≥ b.toNat))

/-- The bit 8XY6 shifts out: bit 0 of the source (R161). -/
def shiftOutLow (a : Byte) : Byte := flagByte (a.getLsbD 0)

/-- The bit 8XYE shifts out: bit 7 of the source (R162). -/
def shiftOutHigh (a : Byte) : Byte := flagByte (a.getLsbD 7)

/-- Write a result to `V[x]` and then a flag to `VF`: with `x = F` the flag wins (R151, D13). -/
def State.setRegFlag (s : State) (x : RegIdx) (result flag : Byte) : State := (s.setReg x result).setReg VF flag

/-- The result of a logic instruction, and `VF <- 0` after it under `LOGIC_CLEARS_VF` (R155 to R157, D12). -/
def State.setRegLogic (s : State) (x : RegIdx) (result : Byte) : State :=
  if s.params.logicClearsVF then s.setRegFlag x result 0x00#8 else s.setReg x result

end Sys2Proof.Machine
end

