-- ==== Sys2Proof/Machine/Operands.lean ====
section
/-! DEFINITION. The operand forms: addresses, the shift source, a nibble held in a register, the registers `V0..V[X]`,
the decimal digits, and the index update of the bulk transfers. -/

namespace Sys2Proof.Machine

/-- `NNN` as a 16-bit address, zero-extended (R93). -/
def address (nnn : Addr12) : Half := nnn.setWidth 16

/-- The target of BNNN: `NNN + V0`, 16-bit, not reduced (R124, D15). -/
def offsetTarget (nnn : Addr12) (v0 : Byte) : Half := BitVec.ofNat 16 (nnn.toNat + v0.toNat)

/-- The source of 8XY6 and 8XYE (R161, R162, D10). -/
def State.shiftOperand (s : State) (x y : RegIdx) : Byte :=
  match s.params.shiftSource with
  | .vy => s.reg y
  | .vx => s.reg x

/-- The value of `V[X]` as a key code or hex digit (R192, R252, R253, D19): above 0xF it is refused, or its low nibble
is taken. -/
def State.nibbleOperand (s : State) (x : RegIdx) : Option (BitVec 4) :=
  if (s.reg x).toNat > 0xF then
    match s.params.nibblePolicy with
    | .refuse => none
    | .mask => some ((s.reg x).extractLsb' 0 4)
  else some ((s.reg x).extractLsb' 0 4)

/-- The address of glyph `d`: `FONT_BASE + 5 * d` (R64, R192). -/
def glyphAddress (p : Params) (d : BitVec 4) : Half := BitVec.ofNat 16 (p.fontBase + 5 * d.toNat)

/-- The numbers of the registers `V0` to `V[X]` (R194, R195). -/
def regsUpTo (x : RegIdx) : List RegIdx := (List.range (x.toNat + 1)).map (BitVec.ofNat 4)

/-- Write bytes to the registers from `V[k]` on, one each (R195). -/
def State.setRegs (s : State) (k : Nat) : List Byte → State
  | [] => s
  | b :: bs => State.setRegs (s.setReg (BitVec.ofNat 4 k) b) (k + 1) bs

/-- Hundreds, tens and units, in this order (R193, D32). -/
def bcdDigits (b : Byte) : List Byte :=
  [BitVec.ofNat 8 (b.toNat / 100), BitVec.ofNat 8 (b.toNat / 10 % 10), BitVec.ofNat 8 (b.toNat % 10)]

/-- `bulk_inc(I, X)` (R196, D11). -/
def bulkInc (p : Params) (i : Half) (x : RegIdx) : Half :=
  match p.bulkIncrement with
  | .xPlus1 => BitVec.ofNat 16 (i.toNat + x.toNat + 1)
  | .x => BitVec.ofNat 16 (i.toNat + x.toNat)
  | .none => i

end Sys2Proof.Machine
end

