-- ==== Sys2Proof/Machine/Arithmetic.lean ====
section
/-! DEFINITION. The register, arithmetic and logic instructions (41_arith_logic R152 to R163). Sums and differences are
modulo 256 (R150); every operand is read from the state before the instruction (R151). -/

namespace Sys2Proof.Machine

/-- LD VX, NN (R152). -/
def execLdImm (x : RegIdx) (nn : Byte) (s : State) : Result := .next (s.setReg x nn).advance

/-- ADD VX, NN (R153): no flag. -/
def execAddImm (x : RegIdx) (nn : Byte) (s : State) : Result := .next (s.setReg x (s.reg x + nn)).advance

/-- LD VX, VY (R154). -/
def execLdReg (x y : RegIdx) (s : State) : Result := .next (s.setReg x (s.reg y)).advance

/-- OR VX, VY (R155). -/
def execOrReg (x y : RegIdx) (s : State) : Result := .next (s.setRegLogic x (s.reg x ||| s.reg y)).advance

/-- AND VX, VY (R156). -/
def execAndReg (x y : RegIdx) (s : State) : Result := .next (s.setRegLogic x (s.reg x &&& s.reg y)).advance

/-- XOR VX, VY (R157). -/
def execXorReg (x y : RegIdx) (s : State) : Result := .next (s.setRegLogic x (s.reg x ^^^ s.reg y)).advance

/-- ADD VX, VY (R158): `VF` is the carry. -/
def execAddReg (x y : RegIdx) (s : State) : Result :=
  .next (s.setRegFlag x (s.reg x + s.reg y) (carryFlag (s.reg x) (s.reg y))).advance

/-- SUB VX, VY (R159): `VF` is 1 when there is no borrow. -/
def execSub (x y : RegIdx) (s : State) : Result :=
  .next (s.setRegFlag x (s.reg x - s.reg y) (noBorrowFlag (s.reg x) (s.reg y))).advance

/-- SUBN VX, VY (R160): `V[Y] - V[X]`. -/
def execSubn (x y : RegIdx) (s : State) : Result :=
  .next (s.setRegFlag x (s.reg y - s.reg x) (noBorrowFlag (s.reg y) (s.reg x))).advance

/-- SHR VX, VY (R161): the bit shifted in is 0. -/
def execShr (x y : RegIdx) (s : State) : Result :=
  .next (s.setRegFlag x (s.shiftOperand x y >>> 1) (shiftOutLow (s.shiftOperand x y))).advance

/-- SHL VX, VY (R162): the bit shifted in is 0. -/
def execShl (x y : RegIdx) (s : State) : Result :=
  .next (s.setRegFlag x (s.shiftOperand x y <<< 1) (shiftOutHigh (s.shiftOperand x y))).advance

/-- RND VX, NN (R163): a free byte under the mask. -/
def execRnd (x : RegIdx) (nn : Byte) (s : State) : Result :=
  .next (s.draw.2.setReg x (s.draw.1 &&& nn)).advance

end Sys2Proof.Machine
end

