-- ==== Sys2Proof/Machine/ControlFlow.lean ====
section
/-! DEFINITION. The control-flow instructions (40_control_flow R121 to R128). -/

namespace Sys2Proof.Machine

/-- RET (R121): with an empty stack it raises `StackUnderflow`; else `PC` is the popped address. -/
def execRet (s : State) : Result :=
  match s.pop with
  | none => .next (s.raise .stackUnderflow)
  | some (a, t) => .next (t.setPc a)

/-- JP NNN (R122). -/
def execJp (nnn : Addr12) (s : State) : Result := .next (s.setPc (address nnn))

/-- CALL NNN (R123): pushes `(PC + 2) mod 4096` (D8); with 16 entries on the stack it raises `StackOverflow`. -/
def execCall (nnn : Addr12) (s : State) : Result :=
  match s.push s.pcNext with
  | none => .next (s.raise .stackOverflow)
  | some t => .next (t.setPc (address nnn))

/-- JP V0, NNN (R124). -/
def execJpV0 (nnn : Addr12) (s : State) : Result := .next (s.setPc (offsetTarget nnn (s.reg 0x0#4)))

/-- SE VX, NN (R125). -/
def execSeImm (x : RegIdx) (nn : Byte) (s : State) : Result := .next (s.skipIf (decide (s.reg x = nn)))

/-- SNE VX, NN (R126). -/
def execSneImm (x : RegIdx) (nn : Byte) (s : State) : Result := .next (s.skipIf (decide (s.reg x ≠ nn)))

/-- SE VX, VY (R127). -/
def execSeReg (x y : RegIdx) (s : State) : Result := .next (s.skipIf (decide (s.reg x = s.reg y)))

/-- SNE VX, VY (R128). -/
def execSneReg (x y : RegIdx) (s : State) : Result := .next (s.skipIf (decide (s.reg x ≠ s.reg y)))

end Sys2Proof.Machine
end

