-- ==== Sys2Proof/Machine/Display.lean ====
section
/-! DEFINITION. The framebuffer's primitives and the display instructions (43_display R220 to R225). -/

namespace Sys2Proof.Machine

/-- The pixel at column `x`, row `y`, both taken modulo the grid (R34, R220). -/
def pixel (fb : Framebuffer) (x y : Nat) : Bool :=
  (fb[y % 32]'(Nat.mod_lt _ (by decide)))[x % 64]'(Nat.mod_lt _ (by decide))

/-- XOR one pixel with 1 (R222). -/
def flipPixel (fb : Framebuffer) (x y : Nat) : Framebuffer :=
  let row := fb[y % 32]'(Nat.mod_lt _ (by decide))
  fb.set (y % 32) (row.set (x % 64) (!pixel fb x y) (Nat.mod_lt _ (by decide))) (Nat.mod_lt _ (by decide))

/-- `clear()` (R221). -/
def clearedFb : Framebuffer := Vector.replicate 32 (Vector.replicate 64 false)

/-- One set sprite bit: the collision bit becomes 1 if the pixel was set, and the pixel toggles (R222, R223). -/
def drawBit (x y : Nat) (c : Bool × Framebuffer) : Bool × Framebuffer :=
  (c.1 || pixel c.2 x y, flipPixel c.2 x y)

/-- One sprite row of 8 pixels from column `x0` in row `y`; bit 7 is the leftmost (R222, D31). -/
def drawRow (x0 y : Nat) (b : Byte) (c : Bool × Framebuffer) : Bool × Framebuffer :=
  (List.range 8).foldl (fun c k => if b.getLsbD (7 - k) then drawBit (x0 + k) y c else c) c

/-- The rows of a sprite, the first in row `y`. -/
def drawRows (x0 y : Nat) : List Byte → Bool × Framebuffer → Bool × Framebuffer
  | [], c => c
  | b :: bs, c => drawRows x0 (y + 1) bs (drawRow x0 y b c)

/-- `draw_sprite(x, y, rows)` (R222): the collision bit and the framebuffer after it; every pixel wraps by itself. The bit
is that of R223, also where the last clause of R227 contradicts it (log 28). -/
def drawSprite (x y : Nat) (rows : List Byte) (fb : Framebuffer) : Bool × Framebuffer :=
  drawRows (x % 64) (y % 32) rows (false, fb)

/-- Set the framebuffer. -/
def State.setFb (s : State) (fb : Framebuffer) : State := { s with fb := fb }

/-- CLS (R224). -/
def execCls (s : State) : Result := .next (s.setFb clearedFb).advance

/-- DXY0 (R225, D18). -/
def drawNothing (s : State) : State :=
  match s.params.zeroHeight with
  | .refuse => s.refuse .zeroHeightSprite
  | .noRows => (s.setReg VF 0x00#8).advance

/-- DXYN with `N` at least 1 (R225): the coordinates are read before `VF` is written. -/
def drawAtI (x y : RegIdx) (n : Nat) (s : State) : State :=
  let d := drawSprite (s.reg x).toNat (s.reg y).toNat (s.readBytes s.i.toNat n) s.fb
  s.checked (s.badRead s.i.toNat n) ((s.setFb d.2).setReg VF (flagByte d.1)).advance

/-- DRW VX, VY, N (R225). -/
def execDrw (x y : RegIdx) (n : BitVec 4) (s : State) : Result :=
  .next (if n = 0x0#4 then drawNothing s else drawAtI x y n.toNat s)

end Sys2Proof.Machine
end

