-- ==== Sys2Proof/Machine/IndexMemory.lean ====
section
/-! DEFINITION. The index-register and memory instructions (42_memory_index R190 to R196). Every address is checked
before anything changes (20_memory R72). -/

namespace Sys2Proof.Machine

/-- LD I, NNN (R190). -/
def execLdI (nnn : Addr12) (s : State) : Result := .next (s.setI (address nnn)).advance

/-- ADD I, VX (R191): modulo 65536, no flag. -/
def execAddI (x : RegIdx) (s : State) : Result := .next (s.setI (s.i + (s.reg x).setWidth 16)).advance

/-- LD F, VX (R192): reads no memory. -/
def execLdF (x : RegIdx) (s : State) : Result :=
  match s.nibbleOperand x with
  | none => .next (s.refuse .fontDigitOutOfRange)
  | some d => .next (s.setI (glyphAddress s.params d)).advance

/-- LD B, VX (R193). -/
def execLdB (x : RegIdx) (s : State) : Result :=
  .next (s.checked (s.badWrite s.i.toNat 3) (s.writeBytes s.i.toNat (bcdDigits (s.reg x))).advance)

/-- LD [I], VX (R194). -/
def execStore (x : RegIdx) (s : State) : Result :=
  .next (s.checked (s.badWrite s.i.toNat (x.toNat + 1))
    ((s.writeBytes s.i.toNat ((regsUpTo x).map s.reg)).setI (bulkInc s.params s.i x)).advance)

/-- LD VX, [I] (R195). -/
def execLoad (x : RegIdx) (s : State) : Result :=
  .next (s.checked (s.badRead s.i.toNat (x.toNat + 1))
    ((s.setRegs 0 (s.readBytes s.i.toNat (x.toNat + 1))).setI (bulkInc s.params s.i x)).advance)

end Sys2Proof.Machine
end

