-- ==== Sys2Proof/Machine/Input.lean ====
section
/-! DEFINITION. The input instructions and the key event (45_input R250 to R256). -/

namespace Sys2Proof.Machine

/-- SKP VX (R252). -/
def execSkp (x : RegIdx) (s : State) : Result :=
  match s.nibbleOperand x with
  | none => .next (s.refuse .keyIndexOutOfRange)
  | some k => .next (s.skipIf (s.isPressed k))

/-- SKNP VX (R253). -/
def execSknp (x : RegIdx) (s : State) : Result :=
  match s.nibbleOperand x with
  | none => .next (s.refuse .keyIndexOutOfRange)
  | some k => .next (s.skipIf (!s.isPressed k))

/-- `STATE <- WaitingForKey(wait_x = X)` (R254). -/
def State.awaitKey (s : State) (x : RegIdx) : State := { s with ctl := .waitingForKey x }

/-- LD VX, K (R254): the core waits; `PC` and `V[X]` do not change yet. -/
def execLdKey (x : RegIdx) (s : State) : Result := .next (s.awaitKey x)

/-- The end of the wait of an FX0A on register `x` by a press of key `k`, one atomic transition (R255). -/
def State.endWait (s : State) (x k : RegIdx) : State :=
  let t := ((s.setKey k true).setReg x (k.setWidth 8)).advance
  { t with ctl := .running, written := { t.written with v := t.written.v.set x.toNat true x.isLt } }

/-- `set_pressed(k, p)` (R250): a qualifying press ends a wait (R255); any other event writes one bit. -/
def State.setPressed (s : State) (k : RegIdx) (p : Bool) : State :=
  match s.ctl with
  | .waitingForKey x => if p && !s.isPressed k then s.endWait x k else s.setKey k p
  | .running | .halted => s.setKey k p

end Sys2Proof.Machine
end

