-- ==== Sys2Proof/Machine/Timers.lean ====
section
/-! DEFINITION. The timer instructions (44_timers R242 to R244). -/

namespace Sys2Proof.Machine

/-- LD VX, DT (R242). -/
def execLdFromDt (x : RegIdx) (s : State) : Result := .next (s.setReg x s.dt).advance

/-- LD DT, VX (R243). -/
def execLdDt (x : RegIdx) (s : State) : Result := .next (s.setDelay (s.reg x)).advance

/-- LD ST, VX (R244). -/
def execLdSt (x : RegIdx) (s : State) : Result := .next (s.setSound (s.reg x)).advance

end Sys2Proof.Machine
end

