-- ==== Sys2Proof/Machine/Uninit.lean ====
section
/-! DEFINITION. What each instruction reads and writes (10_state R21, R28, R33, 20_memory R61), and the check of
`UNINIT_POLICY = refuse` (R44). Under the decided policy `zero` the check never fails. -/

namespace Sys2Proof.Machine

/-- The V registers an instruction reads (R21). -/
def readsV (p : Params) : Instr → List RegIdx
  | .cls | .ret | .jp _ | .call _ | .ldI _ | .ldImm _ _ | .rnd _ _ | .ldFromDt _ | .ldKey _ | .load _ => []
  | .seImm x _ | .sneImm x _ | .addImm x _ => [x]
  | .ldReg _ y => [y]
  | .seReg x y | .sneReg x y | .orReg x y | .andReg x y | .xorReg x y | .addReg x y | .sub x y | .subn x y
  | .drw x y _ => [x, y]
  | .shr x y | .shl x y =>
    match p.shiftSource with
    | .vy => [y]
    | .vx => [x]
  | .jpV0 _ => [0x0#4]
  | .skp x | .sknp x | .ldDt x | .ldSt x | .addI x | .ldF x | .ldB x => [x]
  | .store x => regsUpTo x

/-- Whether an instruction reads `I` (R28); DXY0 ends before it does (R225). -/
def readsI : Instr → Bool
  | .drw _ _ n => decide (n ≠ 0x0#4)
  | .addI _ | .ldB _ | .store _ | .load _ => true
  | .cls | .ret | .jp _ | .call _ | .seImm _ _ | .sneImm _ _ | .seReg _ _ | .ldImm _ _ | .addImm _ _
  | .ldReg _ _ | .orReg _ _ | .andReg _ _ | .xorReg _ _ | .addReg _ _ | .sub _ _ | .shr _ _ | .subn _ _
  | .shl _ _ | .sneReg _ _ | .ldI _ | .jpV0 _ | .rnd _ _ | .skp _ | .sknp _ | .ldFromDt _ | .ldKey _
  | .ldDt _ | .ldSt _ | .ldF _ => false

/-- Whether an instruction reads `DT` (R33). -/
def readsDt : Instr → Bool
  | .ldFromDt _ => true
  | .cls | .ret | .jp _ | .call _ | .seImm _ _ | .sneImm _ _ | .seReg _ _ | .ldImm _ _ | .addImm _ _
  | .ldReg _ _ | .orReg _ _ | .andReg _ _ | .xorReg _ _ | .addReg _ _ | .sub _ _ | .shr _ _ | .subn _ _
  | .shl _ _ | .sneReg _ _ | .ldI _ | .jpV0 _ | .rnd _ _ | .drw _ _ _ | .skp _ | .sknp _ | .ldKey _
  | .ldDt _ | .ldSt _ | .addI _ | .ldF _ | .ldB _ | .store _ | .load _ => false

/-- How many data bytes at `I` an instruction reads (R61). -/
def readsAtI : Instr → Nat
  | .drw _ _ n => n.toNat
  | .load x => x.toNat + 1
  | .cls | .ret | .jp _ | .call _ | .seImm _ _ | .sneImm _ _ | .seReg _ _ | .ldImm _ _ | .addImm _ _
  | .ldReg _ _ | .orReg _ _ | .andReg _ _ | .xorReg _ _ | .addReg _ _ | .sub _ _ | .shr _ _ | .subn _ _
  | .shl _ _ | .sneReg _ _ | .ldI _ | .jpV0 _ | .rnd _ _ | .skp _ | .sknp _ | .ldFromDt _ | .ldKey _
  | .ldDt _ | .ldSt _ | .addI _ | .ldF _ | .ldB _ | .store _ => 0

/-- The V registers an instruction writes when its step completes (R21, R36). FX0A writes its register only when the
wait ends (R255). -/
def writesV (p : Params) : Instr → List RegIdx
  | .cls | .ret | .jp _ | .call _ | .seImm _ _ | .sneImm _ _ | .seReg _ _ | .sneReg _ _ | .ldI _ | .jpV0 _
  | .skp _ | .sknp _ | .ldKey _ | .ldDt _ | .ldSt _ | .addI _ | .ldF _ | .ldB _ | .store _ => []
  | .ldImm x _ | .addImm x _ | .ldReg x _ | .rnd x _ | .ldFromDt x => [x]
  | .orReg x _ | .andReg x _ | .xorReg x _ => if p.logicClearsVF then [x, VF] else [x]
  | .addReg x _ | .sub x _ | .subn x _ | .shr x _ | .shl x _ => [x, VF]
  | .drw _ _ _ => [VF]
  | .load x => regsUpTo x

/-- Whether an instruction writes `I` (R28, R196). -/
def writesI (p : Params) : Instr → Bool
  | .ldI _ | .addI _ | .ldF _ => true
  | .store _ | .load _ => decide (p.bulkIncrement ≠ .none)
  | .cls | .ret | .jp _ | .call _ | .seImm _ _ | .sneImm _ _ | .seReg _ _ | .ldImm _ _ | .addImm _ _
  | .ldReg _ _ | .orReg _ _ | .andReg _ _ | .xorReg _ _ | .addReg _ _ | .sub _ _ | .shr _ _ | .subn _ _
  | .shl _ _ | .sneReg _ _ | .jpV0 _ | .rnd _ _ | .drw _ _ _ | .skp _ | .sknp _ | .ldFromDt _ | .ldKey _
  | .ldDt _ | .ldSt _ | .ldB _ => false

/-- Whether an instruction writes `DT` (R33). -/
def writesDt : Instr → Bool
  | .ldDt _ => true
  | .cls | .ret | .jp _ | .call _ | .seImm _ _ | .sneImm _ _ | .seReg _ _ | .ldImm _ _ | .addImm _ _
  | .ldReg _ _ | .orReg _ _ | .andReg _ _ | .xorReg _ _ | .addReg _ _ | .sub _ _ | .shr _ _ | .subn _ _
  | .shl _ _ | .sneReg _ _ | .ldI _ | .jpV0 _ | .rnd _ _ | .drw _ _ _ | .skp _ | .sknp _ | .ldFromDt _
  | .ldKey _ | .ldSt _ | .addI _ | .ldF _ | .ldB _ | .store _ | .load _ => false

/-- How many bytes at `I` an instruction stores (R61). -/
def writesAtI : Instr → Nat
  | .ldB _ => 3
  | .store x => x.toNat + 1
  | .cls | .ret | .jp _ | .call _ | .seImm _ _ | .sneImm _ _ | .seReg _ _ | .ldImm _ _ | .addImm _ _
  | .ldReg _ _ | .orReg _ _ | .andReg _ _ | .xorReg _ _ | .addReg _ _ | .sub _ _ | .shr _ _ | .subn _ _
  | .shl _ _ | .sneReg _ _ | .ldI _ | .jpV0 _ | .rnd _ _ | .drw _ _ _ | .skp _ | .sknp _ | .ldFromDt _
  | .ldKey _ | .ldDt _ | .ldSt _ | .addI _ | .ldF _ | .load _ => 0

/-- A memory byte "outside the font and the program" that no instruction has written (R44). -/
def State.byteUnwritten (s : State) (a : Nat) : Bool :=
  decide (a < memSize) && !inFont s.params a &&
    !(decide (s.params.loadOffset ≤ a) && decide (a < s.params.loadOffset + s.written.programLength)) &&
    !s.written.mem.contains a

/-- Whether running an instruction would read state that nothing has written: a V register, `I`, `DT`, its data bytes,
or the two bytes it was fetched from (R44; log 13). -/
def State.readsUnwritten (s : State) (i : Instr) : Bool :=
  (readsV s.params i).any (fun r => !(s.written.v[r.toNat]'r.isLt)) ||
  (readsI i && !s.written.i) || (readsDt i && !s.written.dt) ||
  ((List.range (readsAtI i)).any fun k => s.byteUnwritten (s.i.toNat + k)) ||
  s.byteUnwritten s.pc.toNat || s.byteUnwritten (s.pc.toNat + 1)

/-- The check of R44, one of the operand checks of R278: it follows the decoding and precedes every other check. -/
def State.uninitialised (s : State) (i : Instr) : Bool :=
  decide (s.params.uninit = .refuse) && s.readsUnwritten i

/-- Put an address into a rising list, once. -/
def insertAddr (a : Nat) : List Nat → List Nat
  | [] => [a]
  | k :: ks => if a < k then a :: k :: ks else if a = k then k :: ks else k :: insertAddr a ks

/-- The record after an instruction `i` that started in state `s` has completed (R44). -/
def Written.after (w : Written) (s : State) (i : Instr) : Written :=
  { w with
    v := (writesV s.params i).foldl (fun v r => v.set r.toNat true r.isLt) w.v
    i := w.i || writesI s.params i
    dt := w.dt || writesDt i
    mem := (List.range (writesAtI i)).foldl (fun m k => insertAddr (s.i.toNat + k) m) w.mem }

/-- Note what an instruction that started in `s` has written, if its step completed. -/
def noteWritten (s : State) (i : Instr) (r : Result) : Result :=
  match r with
  | .next t => .next (if t.stopped then t else { t with written := t.written.after s i })
  | .fault f => .fault f
  | .refused f => .refused f

end Sys2Proof.Machine
end

