-- ==== Sys2Proof/Machine/Executor.lean ====
section
/-! DEFINITION. The executor's `step()`: fetch, decode, execute, in this order (30_encoding R92, 60_exceptions R278,
R283). Its outcomes `Fault` and `Refuse` are applied to the state here (R276, R279, R284). -/

namespace Sys2Proof.Machine

/-- The fetch: an even `PC` of at most 4094, and two bytes, big-endian (R70, R68, R92). -/
def State.fetch (s : State) : Except FaultCause Half :=
  if s.pc.toNat % 2 ≠ 0 ∨ s.pc.toNat > 4094 then .error (.addressOutOfRange s.pc.toNat)
  else .ok (wordOfBytes (s.readByte s.pc.toNat) (s.readByte (s.pc.toNat + 1)))

/-- The fetch and the decoding: the next instruction, or the fault that R92 raises instead. -/
def State.fetchDecode (s : State) : Except FaultCause Instr :=
  match s.fetch with
  | .error c => .error c
  | .ok w =>
    match decode w with
    | .ok i => .ok i
    | .error _ => .error (.unknownOpcode w)

/-- The executor's `step()` (R283). -/
def cpuStep (s : State) : Result :=
  match s.fetchDecode with
  | .error c => .next (s.raise c)
  | .ok i => if s.uninitialised i then .next (s.refuse .uninitialisedRead) else noteWritten s i (exec i s)

end Sys2Proof.Machine
end

