-- ==== Sys2Proof/Machine/Scheduler.lean ====
section
/-! DEFINITION. The clock scheduler (60_exceptions R284 to R295): three streams of slots with exact deadlines, the
processing of one slot, and the host's calls, which take effect between slots. -/

namespace Sys2Proof.Machine

/-- The three streams of slots (R285). -/
inductive Stream where
  | instr
  | tick
  | frame
  deriving DecidableEq, Repr

/-- The streams, in the order of the reference simulator of R290; the order matters to no rule. -/
def allStreams : List Stream := [.instr, .tick, .frame]

/-- The rate of a stream in slots per second (R285). -/
def State.rate (s : State) : Stream → Nat
  | .instr => s.config.instructionRateHz
  | .tick => timerRateHz
  | .frame => s.config.frameRateHz

/-- How many slots of a stream have been processed (R41). -/
def State.done (s : State) : Stream → Nat
  | .instr => s.nInstr
  | .tick => s.nTick
  | .frame => s.nFrame

/-- The number of a stream's next slot; slots count from 1 (R285). -/
def State.nextSlot (s : State) (a : Stream) : Nat := s.done a + 1

/-- Whether the deadline `k / R` of a stream's next slot is at or before `T` (R286), with the fractions cleared. -/
def State.due (s : State) (a : Stream) : Bool :=
  decide (((s.nextSlot a * s.time.den : Nat) : Int) ≤ s.time.num * (s.rate a : Int))

/-- Whether the next slot of `a` has an earlier deadline than the next slot of `b`, with the fractions cleared. -/
def State.earlier (s : State) (a b : Stream) : Bool :=
  decide (s.nextSlot a * s.rate b < s.nextSlot b * s.rate a)

/-- The streams whose next slot is due and has the soonest deadline (R286); several when deadlines are equal. -/
def State.soonest (s : State) : List Stream :=
  allStreams.filter fun a => s.due a && allStreams.all fun b => !s.earlier b a

/-- The slot to process now, if one is due; equal deadlines are ordered by a free choice (R290, D28; log 6). -/
def State.pick (s : State) : Option (Stream × State) :=
  match s.soonest with
  | [] => none
  | [a] => some (a, s)
  | a :: b :: more =>
    some ((a :: b :: more).getD (Config.tieChoice s.ties % (more.length + 2)) a, { s with ties := s.ties + 1 })

/-- A processed slot increments its stream's counter (R286). -/
def State.count (s : State) : Stream → State
  | .instr => { s with nInstr := s.nInstr + 1 }
  | .tick => { s with nTick := s.nTick + 1 }
  | .frame => { s with nFrame := s.nFrame + 1 }

/-- An instruction slot (R287): a step when `Running`; while waiting the slot is consumed with no step (R256). -/
def instrSlot (s : State) : Result :=
  match s.ctl with
  | .running => cpuStep s
  | .waitingForKey _ => .next s
  | .halted => .next s

/-- Send signals to the host; the list is newest first, as `sent` is (log 11). -/
def State.send (s : State) (signals : List Signal) : State := { s with sent := signals ++ s.sent }

/-- The signals of a frame slot, newest first (R289): one frame-ready with the framebuffer as it stands, and the audio
call when `ST` is not zero (R301, R302). DESIGN CHOICE (log 29), safe: R289 states no order between the two, so the
order is the free value `Config.audioFirst` of the slot's number. -/
def State.frameSignals (s : State) : List Signal :=
  let ready := Signal.frameReady s.fb
  let audio := Signal.audio s.config.beepFrequencyHz
  if s.beepActive then (if Config.audioFirst s.nFrame then [ready, audio] else [audio, ready]) else [ready]

/-- A frame slot (R289): it sends its signals and does nothing else; their order is free (log 29). -/
def State.frame (s : State) : State := s.send s.frameSignals

/-- Process one slot (R287, R288, R289). -/
def processSlot (a : Stream) (s : State) : Result :=
  match a with
  | .instr => instrSlot (s.count .instr)
  | .tick => .next (s.count .tick).tick
  | .frame => .next (s.count .frame).frame

/-- Advance the elapsed time (R286); the slots that become due are processed one at a time by the steps that follow. -/
def State.elapse (s : State) (num den : Nat) : State := { s with time := s.time + mkRat num den }

/-- One call of the host (R286, R250). -/
def State.hostCall (s : State) : HostCall → State
  | .advanceTime num den => s.elapse num den
  | .setPressed k p => s.setPressed k p

/-- What happens when no slot is to be processed (R295): the host's next call takes effect, and when there is none the
core waits for its host; a stopped core has then made its last move (R280, R293). -/
def hostTurn (s : State) : Result :=
  match s.calls with
  | c :: rest => .next (({ s with calls := rest } : State).hostCall c)
  | [] =>
    match s.refused with
    | some r => .refused (.noMeaning r)
    | none => if s.ctl = .halted then .fault (.halted s.fault) else .next s

/-- One move of the whole core: the soonest due slot (R286), and when none is due the host's next call (R295). After a
halt or a refusal no slot is processed any more (R293). -/
def turn (s : State) : Result :=
  if s.stopped then hostTurn s
  else
    match s.pick with
    | some (a, t) => processSlot a t
    | none => hostTurn s

end Sys2Proof.Machine
end

