-- ==== Sys2Proof/WellFormed.lean ====
section
/-! DEFINITION. Well-formedness: of an instruction (nothing to check beyond its types), of the parameters (70_reset
R331) and of a configuration that a host asks for (10_state R37, 60_exceptions R304). -/

namespace Sys2Proof

/-- Every term of `Instr` is well formed: each field has exactly the width R91 gives it, every value of every field is
legal (R93), and the two rows R97 names decode normally whatever their operands. -/
def Instr.wellFormed : Instr → Bool
  | .cls | .ret | .jp _ | .call _ | .seImm _ _ | .sneImm _ _ | .seReg _ _ | .ldImm _ _ | .addImm _ _
  | .ldReg _ _ | .orReg _ _ | .andReg _ _ | .xorReg _ _ | .addReg _ _ | .sub _ _ | .shr _ _ | .subn _ _
  | .shl _ _ | .sneReg _ _ | .ldI _ | .jpV0 _ | .rnd _ _ | .drw _ _ _ | .skp _ | .sknp _ | .ldFromDt _
  | .ldKey _ | .ldDt _ | .ldSt _ | .addI _ | .ldF _ | .ldB _ | .store _ | .load _ => true

/-- A positive integer, given as a rational (R37: "integer", "≥ 1"). -/
def positiveInteger (q : Rat) : Bool := q.den == 1 && decide (0 < q.num)

/-- R304: `create` refuses "a non-positive or non-integer rate or a non-positive beep frequency". -/
def ConfigRequest.legal (c : ConfigRequest) : Bool :=
  positiveInteger c.instructionRateHz && positiveInteger c.frameRateHz && decide (0 < c.beepFrequencyHz.num)

/-- What R37 says of the configuration of a core that exists. -/
abbrev HostConfig.legal (c : HostConfig) : Prop :=
  1 ≤ c.instructionRateHz ∧ 1 ≤ c.frameRateHz ∧ 0 < c.beepFrequencyHz

/-- R331: "the font and the program never overlap (`FONT_BASE + 79 < LOAD_OFFSET`)", and both lie in memory (R63). -/
abbrev Params.legal (p : Params) : Prop :=
  p.fontBase + 79 < p.loadOffset ∧ p.loadOffset ≤ 4096

end Sys2Proof
end

