-- ==== Sys2Proof/Machine/Hosting.lean ====
section
/-! DEFINITION. The host's calls before a core runs, `create` and `load` (60_exceptions R300, R304, 70_reset R331), and
the placing of one instruction where the next step fetches it. -/

namespace Sys2Proof.Machine

/-- The number of bytes a program may have: `4096 - LOAD_OFFSET` (R275). -/
def capacity (p : Params) : Nat := memSize - p.loadOffset

/-- `create(CONFIG)` (R304): a refused configuration gives no core (R331); else steps 2 to 4 of the reset sequence. -/
def create (p : Params) (c : ConfigRequest) : Option State :=
  if c.legal then
    some (State.fresh p
      { instructionRateHz := c.instructionRateHz.num.toNat
        frameRateHz := c.frameRateHz.num.toNat
        beepFrequencyHz := c.beepFrequencyHz
        gradientColoring := c.gradientColoring })
  else none

/-- `load(image)` (R300) of a core just created: too long an image raises `ProgramTooLarge` and writes nothing (R275);
else its bytes are copied to `LOAD_OFFSET` on, unchecked (R66), and `STATE` is `Running`. -/
def State.load (s : State) (image : List Byte) : State :=
  if capacity s.params < image.length then s.raise (.programTooLarge image.length)
  else
    let t := s.writeBytes s.params.loadOffset image
    { t with ctl := .running, written := { t.written with programLength := image.length } }

/-- A created and loaded core (R43, R331). -/
def boot (p : Params) (c : ConfigRequest) (image : List Byte) : Option State := (create p c).map (·.load image)

/-- Put a word where the next step fetches, as if the program image held it there: nothing where `PC` cannot be
fetched from (R70). -/
def State.placeWord (s : State) (word : List Byte) : State :=
  if s.pc.toNat % 2 ≠ 0 ∨ s.pc.toNat > 4094 then s
  else
    let t := s.writeBytes s.pc.toNat word
    { t with written :=
        { t.written with mem := insertAddr s.pc.toNat (insertAddr (s.pc.toNat + 1) t.written.mem) } }

/-- Let the next instruction slot be the soonest due slot, with no tie: `Running`, no fault or refusal, `T` at least the
slot's deadline, and no tick or frame slot at or before it. -/
def State.instrSlotNext (s : State) : State :=
  { s with
    ctl := .running
    fault := none
    refused := none
    time := if s.due .instr then s.time else mkRat (s.nextSlot .instr) (s.rate .instr)
    nTick := max s.nTick (s.nextSlot .instr * s.rate .tick / s.rate .instr)
    nFrame := max s.nFrame (s.nextSlot .instr * s.rate .frame / s.rate .instr) }

end Sys2Proof.Machine
end

