-- ==== Sys2Proof/Machine/Step.lean ====
section
/-! DEFINITION. One step of the machine, and the state in which the next step runs a given instruction. -/

namespace Sys2Proof.Machine

/-- One move of the whole core (60_exceptions R286, R295). -/
def step (s : State) : Host.Outcome State Fault Refusal := turn s

/-- `s` with an instruction (bits numbered as spec/opcode_table.json numbers them) placed at `PC`, and with its
instruction slot the soonest due slot, so that the next step fetches and runs it (log 14). -/
def State.withFetchWord (s : State) (nbits w : Nat) : State := (s.placeWord (tableBytes nbits w)).instrSlotNext

end Sys2Proof.Machine
end

