-- ==== Sys2Proof/Safety.lean ====
section
/-! DEFINITION. The terms claims are made in: the invariant of the core, what a step may touch, the fault entry and the
refusal as the spec words them, deadlines, and the pixels a sprite covers. -/

namespace Sys2Proof.Machine

/-- The invariant of a core that was created and loaded: memory in canonical form; `SP` at most 16 (R29); a legal
configuration (R37) and legal parameters (R331); time not negative (R41); no counter ahead of the time that has passed
(R286); `FAULT` set exactly in `Halted` (R39, R276); `REFUSED` set only while `STATE` is `Running` (R284). -/
abbrev State.Wf (s : State) : Prop :=
  Memory.wf s.params s.mem ∧ s.sp.toNat ≤ 16 ∧ s.config.legal ∧ s.params.legal ∧ 0 ≤ s.time ∧
    ((s.done .instr : Rat) ≤ s.time * s.rate .instr ∧ (s.done .tick : Rat) ≤ s.time * s.rate .tick ∧
      (s.done .frame : Rat) ≤ s.time * s.rate .frame) ∧
    (s.ctl = .halted ↔ s.fault.isSome = true) ∧ (s.refused.isSome = true → s.ctl = .running)

/-- What a completed instruction may change beside the program counter. -/
structure Touched where
  regs : List RegIdx := []
  i : Bool := false
  stack : Bool := false
  dt : Bool := false
  st : Bool := false
  fb : Bool := false
  ctl : Bool := false
  draws : Bool := false
  /-- the first address stored to -/
  base : Nat := 0
  /-- how many bytes are stored -/
  bytes : Nat := 0

/-- Everything but the program counter and what `w` names is the same in `t` as in `s`; every byte of memory outside
the stored ones reads as before. -/
def Frame (w : Touched) (s t : State) : Prop :=
  (∀ r, r ∉ w.regs → t.reg r = s.reg r) ∧ (w.i = true ∨ t.i = s.i) ∧
    (w.stack = true ∨ (t.sp = s.sp ∧ t.stack = s.stack)) ∧ (w.dt = true ∨ t.dt = s.dt) ∧
    (w.st = true ∨ t.st = s.st) ∧ (w.fb = true ∨ t.fb = s.fb) ∧ (w.ctl = true ∨ t.ctl = s.ctl) ∧
    (w.draws = true ∨ t.draws = s.draws) ∧
    (∀ a, ¬ (w.base ≤ a ∧ a < w.base + w.bytes) → t.readByte a = s.readByte a) ∧
    t.keys = s.keys ∧ t.fault = s.fault ∧ t.refused = s.refused ∧ t.config = s.config ∧ t.params = s.params ∧
    t.time = s.time ∧ t.nInstr = s.nInstr ∧ t.nTick = s.nTick ∧ t.nFrame = s.nFrame ∧ t.ties = s.ties ∧
    t.calls = s.calls ∧ t.sent = s.sent ∧ t.written = s.written

/-- `PC` goes to the next instruction, wrapping at the end of memory (R25). -/
def Advances (s t : State) : Prop := t.pc.toNat = (s.pc.toNat + 2) % 4096

/-- The instructions of R26's first row: those that go on to the next instruction. -/
def sequential : Instr → Bool
  | .ret | .jp _ | .call _ | .jpV0 _ | .seImm _ _ | .sneImm _ _ | .seReg _ _ | .sneReg _ _ | .skp _ | .sknp _
  | .ldKey _ => false
  | .cls | .ldImm _ _ | .addImm _ _ | .ldReg _ _ | .orReg _ _ | .andReg _ _ | .xorReg _ _ | .addReg _ _
  | .sub _ _ | .shr _ _ | .subn _ _ | .shl _ _ | .ldI _ | .rnd _ _ | .drw _ _ _ | .ldFromDt _ | .ldDt _
  | .ldSt _ | .addI _ | .ldF _ | .ldB _ | .store _ | .load _ => true

/-- `PC` goes over one word if the condition holds, else to the next instruction (R25, R26). -/
def Skips (c : Prop) (s t : State) : Prop :=
  (c → t.pc.toNat = (s.pc.toNat + 4) % 4096) ∧ (¬ c → t.pc.toNat = (s.pc.toNat + 2) % 4096)

/-- The fault entry of R276 and R306, read as far as R277 lets a claim read a halted core: `FAULT` takes the kind with
its info and the program counter of the faulting step, `STATE` is `Halted`, and one report is sent. -/
def Halts (c : FaultCause) (s t : State) : Prop :=
  t.fault = some ⟨c, s.pc⟩ ∧ t.ctl = .halted ∧ t.sent = Signal.faultReport ⟨c, s.pc⟩ :: s.sent

/-- `refuse R` of R279: `REFUSED` takes the reason and nothing else changes. -/
def Refuses (r : RefuseReason) (s t : State) : Prop := t = { s with refused := some r }

/-- `a` is the lowest of the addresses `base .. base+n-1` for which the access fails (R72). -/
def LowestFailing (fails : Nat → Prop) (base n a : Nat) : Prop :=
  base ≤ a ∧ a < base + n ∧ fails a ∧ ∀ b, base ≤ b → b < a → ¬ fails b

/-- An instruction's write to an address fails (R66, R67). -/
def WriteFails (p : Params) (a : Nat) : Prop := a > 4095 ∨ (p.protectLow = true ∧ a < p.loadOffset)

/-- What `bulk_inc` adds to `I` (R196). -/
def bulkAmount (p : Params) (x : RegIdx) : Nat :=
  match p.bulkIncrement with
  | .xPlus1 => x.toNat + 1
  | .x => x.toNat
  | .none => 0

/-- Whether the sprite of `n` rows at `I`, drawn at column `x`, row `y`, has a set bit over the pixel `(px, py)`: the
pixel's distance from the corner, taken around the grid, is the sprite's column and row (R222). -/
def spriteCovers (s : State) (x y n px py : Nat) : Bool :=
  let c := (px + (64 - x % 64)) % 64
  let r := (py + (32 - y % 32)) % 32
  decide (c < 8) && decide (r < n) && (s.readByte (s.i.toNat + r)).getLsbD (7 - c)

/-- A memory byte "outside the font and the program" that no instruction has written (R44). -/
def State.NeverWritten (s : State) (a : Nat) : Prop :=
  a < 4096 ∧ ¬ (s.params.fontBase ≤ a ∧ a < s.params.fontBase + 80) ∧
    ¬ (s.params.loadOffset ≤ a ∧ a < s.params.loadOffset + s.written.programLength) ∧ a ∉ s.written.mem

/-- What R44 forbids a step under `UNINIT_POLICY = refuse`: it reads a V register, `I`, `DT`, or a memory byte (one of
its data bytes at `I`, or of its own two bytes) that nothing has written. -/
def State.ReadsNeverWritten (s : State) (i : Instr) : Prop :=
  (∃ r ∈ readsV s.params i, s.written.v[r.toNat]? = some false) ∨ (readsI i = true ∧ s.written.i = false) ∨
    (readsDt i = true ∧ s.written.dt = false) ∨
    (∃ k, k < readsAtI i ∧ s.NeverWritten (s.i.toNat + k)) ∨ s.NeverWritten s.pc.toNat ∨
    s.NeverWritten (s.pc.toNat + 1)

/-- The record in `t` is the one in `s` with what a completed instruction `i` of `s` has written added (R44). -/
def Records (i : Instr) (s t : State) : Prop :=
  (∀ r : RegIdx, t.written.v[r.toNat]? = some true ↔ s.written.v[r.toNat]? = some true ∨ r ∈ writesV s.params i) ∧
    (t.written.i = true ↔ s.written.i = true ∨ writesI s.params i = true) ∧
    (t.written.dt = true ↔ s.written.dt = true ∨ writesDt i = true) ∧
    (∀ a, a ∈ t.written.mem ↔ a ∈ s.written.mem ∨ (s.i.toNat ≤ a ∧ a < s.i.toNat + writesAtI i)) ∧
    t.written.programLength = s.written.programLength

/-- The deadline of a stream's next slot, in seconds (R285). -/
def State.deadline (s : State) (a : Stream) : Rat := (s.nextSlot a : Rat) / (s.rate a : Rat)

/-- How many slots of a stream have their deadline at or before `T` (R286). -/
def State.slotsUpTo (s : State) (a : Stream) : Nat := (s.time * (s.rate a : Rat)).floor.toNat

/-- How many due slots are still to be processed. -/
def State.owed (s : State) : Nat :=
  (s.slotsUpTo .instr - s.nInstr) + (s.slotsUpTo .tick - s.nTick) + (s.slotsUpTo .frame - s.nFrame)

/-- No slot is to be processed now: none is due, or the core is stopped (R286, R293). -/
def State.Quiet (s : State) : Prop := s.stopped = true ∨ ∀ a : Stream, s.due a = false

/-- The seconds by which a host call advances time (R286). -/
def HostCall.seconds : HostCall → Rat
  | .advanceTime num den => mkRat num den
  | .setPressed _ _ => 0

/-- Whether a signal is frame-ready. -/
def Signal.isFrame : Signal → Bool
  | .frameReady _ => true
  | .audio _ => false
  | .faultReport _ => false

/-- Whether a signal is the fault report. -/
def Signal.isReport : Signal → Bool
  | .faultReport _ => true
  | .frameReady _ => false
  | .audio _ => false

/-- The signals sent agree with the state: one frame-ready signal per processed frame slot (R291), one fault report
when `FAULT` is set and none otherwise (R306). -/
def State.SignalsAgree (s : State) : Prop :=
  s.sent.countP Signal.isFrame = s.nFrame ∧ s.sent.countP Signal.isReport = if s.fault.isSome then 1 else 0

/-- The bytes below `LOAD_OFFSET` are those of reset (R63, R66). -/
def State.LowIntact (s : State) : Prop := ∀ a, a < s.params.loadOffset → s.readByte a = resetByte s.params a

end Sys2Proof.Machine
end

