-- ==== Sys2Proof/Certificates/Slice0/Obligations.lean ====
section
/-! DEFINITION. The statements for the provers. Each docstring says which rules of the spec it formalises. -/

open Sys2Proof Sys2Proof.Machine

/-! ## Encoding (30_encoding) -/

/-- R94, R95, R96 on words written out from the table: one of each family, and words that select no row. -/
def Obligations.WrittenOutWordsDecode : Prop :=
  decode 0x00E0#16 = .ok .cls ∧ decode 0x1234#16 = .ok (.jp 0x234#12) ∧
    decode 0x332A#16 = .ok (.seImm 0x3#4 0x2A#8) ∧ decode 0x812E#16 = .ok (.shl 0x1#4 0x2#4) ∧
    decode 0xA2F0#16 = .ok (.ldI 0x2F0#12) ∧ decode 0xD015#16 = .ok (.drw 0x0#4 0x1#4 0x5#4) ∧
    decode 0xE19E#16 = .ok (.skp 0x1#4) ∧ decode 0xF215#16 = .ok (.ldDt 0x2#4) ∧
    decode 0xF165#16 = .ok (.load 0x1#4) ∧ decode 0x0123#16 = .error (.unknownOpcode 0x0123#16) ∧
    decode 0x5121#16 = .error (.unknownOpcode 0x5121#16) ∧ decode 0x8128#16 = .error (.unknownOpcode 0x8128#16) ∧
    decode 0xFFFF#16 = .error (.unknownOpcode 0xFFFF#16)

/-- R94, R100: decoding the word of any instruction gives that instruction, for every operand. -/
def Obligations.DecodeOfEncode : Prop := ∀ i : Instr, decode (encode i) = .ok i

/-- R94, R100: a word that decodes is the word of the instruction it decodes to, so no bit of it is dropped and each
word has one meaning. -/
def Obligations.EncodeOfDecode : Prop := ∀ (w : Half) (i : Instr), decode w = .ok i → encode i = w

/-- R95, R96: the words that select no row are exactly those of R95's list, SYS words among them, and each is rejected
by its own value. -/
def Obligations.UnknownWordsAreExactlyTheListed : Prop :=
  ∀ w : Half,
    let n := w.toNat % 16
    let nn := w.toNat % 256
    (decode w = .error (.unknownOpcode w) ↔
      (w.toNat ≤ 0x0FFF ∧ w.toNat ≠ 0x00E0 ∧ w.toNat ≠ 0x00EE) ∨ (w.toNat / 4096 = 0x5 ∧ n ≠ 0) ∨
      (w.toNat / 4096 = 0x8 ∧ n ∈ [0x8, 0x9, 0xA, 0xB, 0xC, 0xD, 0xF]) ∨ (w.toNat / 4096 = 0x9 ∧ n ≠ 0) ∨
      (w.toNat / 4096 = 0xE ∧ nn ∉ [0x9E, 0xA1]) ∨
      (w.toNat / 4096 = 0xF ∧ nn ∉ [0x07, 0x0A, 0x15, 0x18, 0x1E, 0x29, 0x33, 0x55, 0x65])) ∧
    (∀ e, decode w = .error e → e = .unknownOpcode w)

/-! ## One step (30_encoding R92, 60_exceptions R278, R283, R287) -/

/-- When the next slot is an instruction slot of a running core and the two bytes at an even `PC` of at most 4094
decode to `i`, the step is `exec i` at the same state, but for the slot counter (and the tie counter, which `pick`
moves): the record `written` is all that is added to the state `exec` gives, and only if that state goes on. The check
of `UNINIT_POLICY` does not fail here. -/
def Obligations.StepRunsTheDecodedInstruction : Prop :=
  ∀ (s u : State) (i : Instr), s.stopped = false → s.pick = some (.instr, u) → s.ctl = .running →
    s.pc.toNat % 2 = 0 → s.pc.toNat ≤ 4094 →
    decode (wordOfBytes (s.readByte s.pc.toNat) (s.readByte (s.pc.toNat + 1))) = .ok i →
    s.uninitialised i = false →
    (u = { s with ties := u.ties }) ∧
      step s = noteWritten { u with nInstr := u.nInstr + 1 } i (exec i { u with nInstr := u.nInstr + 1 }) ∧
      ∀ t, exec i { u with nInstr := u.nInstr + 1 } = .next t →
        ∃ w, step s = .next { t with written := w } ∧ (t.stopped = true → w = t.written)

/-- R70, R92: the fetch checks `PC` first; at an odd `PC` or above 4094 the step halts with `AddressOutOfRange(PC)` and
records `PC`, whatever the bytes there are. -/
def Obligations.FetchHaltsAtABadProgramCounter : Prop :=
  ∀ s u : State, s.stopped = false → s.pick = some (.instr, u) → s.ctl = .running →
    (s.pc.toNat % 2 = 1 ∨ s.pc.toNat > 4094) →
    ∃ t, step s = .next t ∧ Halts (.addressOutOfRange s.pc.toNat) s t

/-- R92, R95, R274: a fetched word that selects no row halts the core with `UnknownOpcode(w)`; no opcode is
skipped. -/
def Obligations.UnknownWordHaltsTheStep : Prop :=
  ∀ (s u : State) (w : Half), s.stopped = false → s.pick = some (.instr, u) → s.ctl = .running →
    s.pc.toNat % 2 = 0 → s.pc.toNat ≤ 4094 →
    w = wordOfBytes (s.readByte s.pc.toNat) (s.readByte (s.pc.toNat + 1)) → (∀ i, decode w ≠ .ok i) →
    ∃ t, step s = .next t ∧ Halts (.unknownOpcode w) s t

/-- R44: under `zero` no read is ever refused. Under `refuse` a step ends in `Refused(UninitialisedRead)`, and changes
nothing else but its counters, exactly when its instruction reads a V register, `I`, `DT`, or a memory byte outside the
font and the program that nothing has written; and a step that completes adds to the record what it has written. The
record, the fetched bytes among the bytes read, and the place of the check are the model's (log 13). -/
def Obligations.UninitialisedReadIsRefusedOnlyByPolicy : Prop :=
  (∀ (s : State) (i : Instr), s.params.uninit = .zero → s.uninitialised i = false) ∧
  (∀ (s u : State) (i : Instr), s.stopped = false → s.pick = some (.instr, u) → s.ctl = .running →
    s.pc.toNat % 2 = 0 → s.pc.toNat ≤ 4094 →
    decode (wordOfBytes (s.readByte s.pc.toNat) (s.readByte (s.pc.toNat + 1))) = .ok i →
    s.params.uninit = .refuse →
    (s.ReadsNeverWritten i →
      ∃ t, step s = .next t ∧ Refuses .uninitialisedRead { s with ties := u.ties, nInstr := s.nInstr + 1 } t) ∧
    (¬ s.ReadsNeverWritten i →
      ∃ t, step s = .next t ∧ t.refused ≠ some .uninitialisedRead ∧ (t.stopped = false → Records i s t)))

/-! ## The scheduler (60_exceptions R284 to R295) -/

/-- R286, R290: the slot picked is due and no stream's next slot has an earlier deadline; picking moves nothing but the
model's tie counter; and when any slot is due one is picked. -/
def Obligations.PickedSlotIsDueAndSoonest : Prop :=
  ∀ s : State, s.config.legal →
    (∀ (a : Stream) (u : State), s.pick = some (a, u) →
      s.deadline a ≤ s.time ∧ (∀ b, s.deadline a ≤ s.deadline b) ∧ u = { s with ties := u.ties } ∧
        (u.ties = s.ties ∨ u.ties = s.ties + 1)) ∧
    (∀ b : Stream, s.deadline b ≤ s.time → ∃ a u, s.pick = some (a, u))

/-- R241, R288: a tick slot takes one from each timer that is not zero, in `Running` and in `WaitingForKey` alike; it
changes nothing else but the counters. -/
def Obligations.TickSlotCountsBothTimersDown : Prop :=
  ∀ s u : State, s.stopped = false → s.pick = some (.tick, u) →
    ∃ d e : Byte, step s = .next { s with nTick := s.nTick + 1, ties := u.ties, dt := d, st := e } ∧
      d.toNat = s.dt.toNat - 1 ∧ e.toNat = s.st.toNat - 1

/-- R289, R301, R302: a frame slot sends one frame-ready signal with the framebuffer as it stands, and the audio call
with `beep_frequency_hz` exactly when `ST` is not zero; it changes nothing else but the counters. R289 states no order
between the two signals, and neither does this statement: the model leaves it free (log 29). The record of signals is
the model's own (log 11). -/
def Obligations.FrameSlotSignalsTheHost : Prop :=
  ∀ s u : State, s.stopped = false → s.pick = some (.frame, u) →
    ∃ signals : List Signal,
      step s = .next { s with nFrame := s.nFrame + 1, ties := u.ties, sent := signals ++ s.sent } ∧
      (s.st.toNat = 0 → signals = [Signal.frameReady s.fb]) ∧
      (s.st.toNat ≠ 0 →
        signals = [Signal.frameReady s.fb, Signal.audio s.config.beepFrequencyHz] ∨
          signals = [Signal.audio s.config.beepFrequencyHz, Signal.frameReady s.fb])

/-- R256, R287: while the core waits for a key an instruction slot is consumed and no instruction runs. -/
def Obligations.WaitingConsumesInstructionSlots : Prop :=
  ∀ (s u : State) (x : RegIdx), s.stopped = false → s.ctl = .waitingForKey x → s.pick = some (.instr, u) →
    step s = .next { s with nInstr := s.nInstr + 1, ties := u.ties }

/-- R286, R293, R295: the host's next call takes effect only when no slot is to be processed, and then at once; time
advances by exactly the seconds of the call, and nothing but the remaining calls changes with it. -/
def Obligations.HostAdvancesTimeBetweenSlots : Prop :=
  ∀ (s : State) (num den : Nat) (rest : List HostCall), s.calls = .advanceTime num den :: rest → s.Quiet →
    step s = .next { s with calls := rest, time := s.time + mkRat num den }

/-- R255: a qualifying press, of a key that is not pressed, ends the wait in one transition: the key is recorded,
`V[x]` takes its code, `PC` moves on and the core runs. -/
def Obligations.QualifyingPressEndsTheWait : Prop :=
  ∀ (s : State) (x k : RegIdx) (rest : List HostCall), s.calls = .setPressed k true :: rest → s.Quiet →
    s.ctl = .waitingForKey x → s.isPressed k = false →
    ∃ t, step s = .next t ∧ t.ctl = .running ∧ (∀ j, t.isPressed j = if j = k then true else s.isPressed j) ∧
      (t.reg x).toNat = k.toNat ∧ (∀ r, r ≠ x → t.reg r = s.reg r) ∧ Advances s t ∧
      t = { s with ctl := t.ctl, keys := t.keys, v := t.v, pc := t.pc, calls := rest, written := t.written }

/-- R250, R255: every other key event writes its one bit of the bitmap and nothing else; a core that waits goes on
waiting. -/
def Obligations.OtherKeyEventsOnlyWriteTheBitmap : Prop :=
  ∀ (s : State) (k : RegIdx) (p : Bool) (rest : List HostCall), s.calls = .setPressed k p :: rest → s.Quiet →
    (∀ x, s.ctl = .waitingForKey x → p = true → s.isPressed k = true) →
    ∃ t, step s = .next t ∧ (∀ j, t.isPressed j = if j = k then p else s.isPressed j) ∧
      t = { s with keys := t.keys, calls := rest }

/-- R280, R293: after a halt or a refusal no slot is processed: a step takes the host's next call or ends the run, and
`STATE`, `FAULT`, `REFUSED`, the counters, the signals and the machine's registers and memory never change again.
`advance_time` adds to `T` and has no other effect. -/
def Obligations.StoppedCoreNeverMovesAgain : Prop :=
  ∀ s t : State, s.Wf → s.stopped = true → step s = .next t →
    t.stopped = true ∧ t.ctl = s.ctl ∧ t.fault = s.fault ∧ t.refused = s.refused ∧ t.nInstr = s.nInstr ∧
      t.nTick = s.nTick ∧ t.nFrame = s.nFrame ∧ t.sent = s.sent ∧ t.pc = s.pc ∧ t.v = s.v ∧ t.i = s.i ∧
      t.dt = s.dt ∧ t.st = s.st ∧ t.fb = s.fb ∧ t.mem = s.mem ∧ t.stack = s.stack ∧ t.sp = s.sp ∧
      (∀ num den rest, s.calls = .advanceTime num den :: rest →
        t = { s with calls := rest, time := s.time + mkRat num den })

/-- The model's outcomes (log 9): a step answers a fault only for a halted core whose host makes no further call, with
its fault record, and a refusal only for a core whose `REFUSED` is set. -/
def Obligations.StepStopsOnlyAStoppedCore : Prop :=
  ∀ s : State,
    (∀ f, step s = .fault f → f = .halted s.fault ∧ s.ctl = .halted ∧ s.calls = []) ∧
    (∀ r, step s = .refused r → ∃ why, s.refused = some why ∧ r = .noMeaning why ∧ s.calls = [])

/-- R286: in a live state with a legal configuration, when no counter is ahead of the time and no slot is due, each
stream has processed exactly `floor(T * R)` slots. -/
def Obligations.QuietCountersAreFloors : Prop :=
  ∀ s : State, s.Wf → (∀ a : Stream, s.due a = false) →
    ∀ a : Stream, (s.done a : Int) = (s.time * (s.rate a : Rat)).floor

/-- R286, R291: from any state of the invariant, at most as many steps as slots are owed lead to a state with no slot
to process, while time and the host's calls stand still. When the core has not stopped on the way, the steps were
exactly as many as the slots owed, and each stream's counter is `floor(T * R)`: none was dropped. That a step is one
slot, and that the calls to come stand in the state, are the model's (log 9, log 10). -/
def Obligations.DueSlotsAreAllProcessed : Prop :=
  ∀ s : State, s.Wf → ∃ (k : Nat) (t : State), k ≤ s.owed ∧ Host.Core.run Sys2Proof.core k s = .next t ∧ t.Quiet ∧
    t.time = s.time ∧ t.calls = s.calls ∧
    (t.stopped = false → k = s.owed ∧ ∀ a : Stream, t.done a = s.slotsUpTo a)

/-- R292: for every configuration, image and sequence of host calls, when a run from reset has consumed the calls and
neither halted nor refused and no slot is due, the counters, and the frame-ready signals sent, are `floor(T * R)` of
the total time of the calls, however it was split. The list of calls, the record of signals and the numerator and
denominator of an advance are the model's (log 10, log 11, log 12). -/
def Obligations.SlotCountsDependOnlyOnTotalTime : Prop :=
  ∀ (p : Params) (c : ConfigRequest) (image : List Byte) (s t : State) (calls : List HostCall) (k : Nat),
    p.legal → boot p c image = some s → Host.Core.run Sys2Proof.core k { s with calls := calls } = .next t →
    t.stopped = false → t.calls = [] → (∀ a : Stream, t.due a = false) →
    t.time = (calls.map HostCall.seconds).sum ∧
      (t.nInstr : Int) = (t.time * (s.config.instructionRateHz : Rat)).floor ∧
      (t.nTick : Int) = (t.time * 60).floor ∧ (t.nFrame : Int) = (t.time * (s.config.frameRateHz : Rat)).floor ∧
      (t.sent.countP Signal.isFrame : Int) = (t.time * (s.config.frameRateHz : Rat)).floor

/-! ## Invariants and whole-machine rules -/

/-- The state after reset meets the invariant. -/
def Obligations.ResetMeetsTheInvariant : Prop := State.reset.Wf ∧ State.reset.SignalsAgree ∧ State.reset.LowIntact

/-- Every step keeps the invariant, from every state that meets it. -/
def Obligations.StepKeepsTheInvariant : Prop := ∀ s t : State, s.Wf → step s = .next t → t.Wf

/-- R291, R306: every step keeps the agreement of the signals sent with the state: one frame-ready signal per frame
slot, one fault report per fault. -/
def Obligations.StepKeepsTheSignalsAgreed : Prop :=
  ∀ s t : State, s.Wf → s.SignalsAgree → step s = .next t → t.SignalsAgree

/-- R66: under `PROTECT_LOW_MEMORY` no step changes a byte below `LOAD_OFFSET`, so the reserved region keeps the bytes
of reset, the font among them. -/
def Obligations.ProtectedMemoryNeverChanges : Prop :=
  ∀ s t : State, s.params.protectLow = true → step s = .next t →
    (∀ a, a < s.params.loadOffset → t.readByte a = s.readByte a) ∧ (s.LowIntact → t.LowIntact)

/-- R37, R46: no step changes the configuration or the parameters. -/
def Obligations.ConfigurationNeverChanges : Prop :=
  ∀ s t : State, step s = .next t → t.config = s.config ∧ t.params = s.params

/-- R26, R72, R277, R279 (D22; log 7): every instruction answers a next state in every state, and one that faults or is
refused changes nothing but `FAULT`, `STATE`, `REFUSED` and the report. The source lets the hardware leave partial
effects of a faulting step, so this reads more of a halted core than R277 lets a claim about the hardware read. -/
def Obligations.FaultingAndRefusedStepsChangeNothing : Prop :=
  ∀ (i : Instr) (s : State), s.fault = none → s.refused = none →
    ∃ t, exec i s = .next t ∧
      (t.fault.isSome = true ∨ t.refused.isSome = true →
        t = { s with fault := t.fault, refused := t.refused, ctl := t.ctl, sent := t.sent })

/-- R283, R343: an instruction has no notion of time: its effect is the same whatever the clock, the configuration, the
slot counters, the host's calls and the signals already sent are, and it leaves them all as they were, but for the
report of its own fault. -/
def Obligations.InstructionsIgnoreTheClock : Prop :=
  ∀ (i : Instr) (s t : State) (time : Rat) (config : HostConfig) (n m k : Nat) (calls : List HostCall)
    (sent : List Signal), exec i s = .next t →
    ∃ report : List Signal, (report = [] ∨ ∃ f, t.fault = some f ∧ report = [Signal.faultReport f]) ∧
      t = { t with time := s.time, config := s.config, nInstr := s.nInstr, nTick := s.nTick, nFrame := s.nFrame,
                   calls := s.calls, sent := report ++ s.sent } ∧
      exec i { s with time := time, config := config, nInstr := n, nTick := m, nFrame := k, calls := calls, sent := sent }
        = .next { t with time := time, config := config, nInstr := n, nTick := m, nFrame := k, calls := calls,
                         sent := report ++ sent }

/-- R25, R26: an instruction that is no jump, call, return, skip or key wait, and whose step neither faults nor refuses,
moves `PC` to `(PC + 2) mod 4096`. -/
def Obligations.OtherInstructionsAdvanceByTwo : Prop :=
  ∀ (i : Instr) (s t : State), sequential i = true → s.fault = none → s.refused = none → exec i s = .next t →
    t.fault = none → t.refused = none → Advances s t

/-- R270 to R274: which instruction raises which fault: `AddressOutOfRange` only DXYN, FX33, FX55 and FX65,
`StackOverflow` only CALL with 16 entries, `StackUnderflow` only RET with none; no other fault comes from executing. -/
def Obligations.FaultsComeOnlyFromTheirInstructions : Prop :=
  ∀ (i : Instr) (s t : State) (f : FaultRecord), s.sp.toNat ≤ 16 → s.fault = none → exec i s = .next t →
    t.fault = some f →
    f.pc = s.pc ∧
      ((∃ a, f.cause = .addressOutOfRange a ∧ ((∃ x y n, i = .drw x y n) ∨ ∃ x, i = .ldB x ∨ i = .store x ∨ i = .load x)) ∨
        (f.cause = .stackOverflow ∧ (∃ nnn, i = .call nnn) ∧ s.sp.toNat = 16) ∨
        (f.cause = .stackUnderflow ∧ i = .ret ∧ s.sp.toNat = 0))

/-- R21: an instruction leaves every V register outside its row of R21's list of writers as it was, `VF` included
where no flag is written (R36). -/
def Obligations.OnlyListedRegistersAreWritten : Prop :=
  ∀ (i : Instr) (s t : State) (r : RegIdx), exec i s = .next t → r ∉ writesV s.params i → t.reg r = s.reg r

/-- R21, R61: an instruction's effect does not depend on a V register outside its row of R21's list of readers: with
another value in it, every other register, the flag, `PC`, `I`, the timers, memory, the framebuffer, the stack and
every status come out the same, and so does that register where the instruction writes it and `PC` moved (a fault or a
refusal moves nothing). -/
def Obligations.UnreadRegistersDoNotMatter : Prop :=
  ∀ (i : Instr) (s t t' : State) (r : RegIdx) (b : Byte), r ∉ readsV s.params i → exec i s = .next t →
    exec i (s.setReg r b) = .next t' →
    (∀ q, q ≠ r ∨ (q ∈ writesV s.params i ∧ t.pc ≠ s.pc) → t'.reg q = t.reg q) ∧ t = { t' with v := t.v }

/-- R29, R61, R34, R33, R35, R28: over all instructions: only FX33 and FX55 write memory, only CALL and RET touch the stack,
only 00E0 and DXYN the framebuffer, only FX15 `DT`, only FX18 `ST`, only ANNN, FX1E, FX29, FX55 and FX65 `I`; none
writes the key bitmap. -/
def Obligations.EachPartHasOnlyItsWriters : Prop :=
  ∀ (i : Instr) (s t : State), exec i s = .next t →
    ((∀ x, i ≠ .ldB x ∧ i ≠ .store x) → ∀ a, t.readByte a = s.readByte a) ∧
    ((i ≠ .ret ∧ ∀ nnn, i ≠ .call nnn) → t.sp = s.sp ∧ t.stack = s.stack) ∧
    ((i ≠ .cls ∧ ∀ x y n, i ≠ .drw x y n) → t.fb = s.fb) ∧
    ((∀ x, i ≠ .ldDt x) → t.dt = s.dt) ∧ ((∀ x, i ≠ .ldSt x) → t.st = s.st) ∧
    (((∀ nnn, i ≠ .ldI nnn) ∧ ∀ x, i ≠ .addI x ∧ i ≠ .ldF x ∧ i ≠ .store x ∧ i ≠ .load x) → t.i = s.i) ∧
    t.keys = s.keys

/-! ## Control flow (40_control_flow) -/

/-- R121: RET pops the top entry into `PC`; with an empty stack it halts with `StackUnderflow`. -/
def Obligations.RetPopsOrUnderflows : Prop :=
  ∀ s : State,
    (s.sp.toNat = 0 → ∃ t, exec .ret s = .next t ∧ Halts .stackUnderflow s t) ∧
    (0 < s.sp.toNat → s.sp.toNat ≤ 16 →
      ∃ t, exec .ret s = .next t ∧ t.sp.toNat = s.sp.toNat - 1 ∧ s.stack[s.sp.toNat - 1]? = some t.pc ∧
        t.stack = s.stack ∧ Frame { stack := true } s t)

/-- R123: CALL pushes `(PC + 2) mod 4096` and jumps; with 16 entries on the stack it halts with `StackOverflow`. -/
def Obligations.CallPushesOrOverflows : Prop :=
  ∀ (s : State) (nnn : Addr12),
    (s.sp.toNat = 16 → ∃ t, exec (.call nnn) s = .next t ∧ Halts .stackOverflow s t) ∧
    (s.sp.toNat < 16 →
      ∃ t, exec (.call nnn) s = .next t ∧ t.sp.toNat = s.sp.toNat + 1 ∧ t.pc.toNat = nnn.toNat ∧
        t.stack[s.sp.toNat]? = some (BitVec.ofNat 16 ((s.pc.toNat + 2) % 4096)) ∧
        (∀ j, j ≠ s.sp.toNat → t.stack[j]? = s.stack[j]?) ∧ Frame { stack := true } s t)

/-- R121, R123: a RET right after a CALL comes back behind the CALL with the stack as it was. -/
def Obligations.RetUndoesCall : Prop :=
  ∀ (s t : State) (nnn : Addr12), s.sp.toNat < 16 → exec (.call nnn) s = .next t →
    ∃ u, exec .ret t = .next u ∧ Advances s u ∧ u.sp = s.sp ∧ ∀ j, j < s.sp.toNat → u.stack[j]? = s.stack[j]?

/-- R122, R124: JP jumps to `NNN`, whatever lies there; JP V0 to `NNN + V0`, not reduced. -/
def Obligations.JumpsGoToTheirTargets : Prop :=
  ∀ (s : State) (nnn : Addr12),
    (∃ t, exec (.jp nnn) s = .next t ∧ t.pc.toNat = nnn.toNat ∧ Frame {} s t) ∧
    (∃ t, exec (.jpV0 nnn) s = .next t ∧ t.pc.toNat = nnn.toNat + (s.reg 0x0#4).toNat ∧ Frame {} s t)

/-- R125, R126, R127, R128: the words of the four skips; each goes over one word exactly when its condition holds and
changes only `PC`. -/
def Obligations.SkipsFollowTheirConditions : Prop :=
  ∀ (s : State) (x y : RegIdx) (nn : Byte),
    (decode (0x3#4 ++ x ++ nn) = .ok (.seImm x nn) ∧ decode (0x4#4 ++ x ++ nn) = .ok (.sneImm x nn) ∧
      decode (0x5#4 ++ x ++ y ++ 0x0#4) = .ok (.seReg x y) ∧ decode (0x9#4 ++ x ++ y ++ 0x0#4) = .ok (.sneReg x y)) ∧
    (∃ t, exec (.seImm x nn) s = .next t ∧ Skips (s.reg x = nn) s t ∧ Frame {} s t) ∧
    (∃ t, exec (.sneImm x nn) s = .next t ∧ Skips (s.reg x ≠ nn) s t ∧ Frame {} s t) ∧
    (∃ t, exec (.seReg x y) s = .next t ∧ Skips (s.reg x = s.reg y) s t ∧ Frame {} s t) ∧
    (∃ t, exec (.sneReg x y) s = .next t ∧ Skips (s.reg x ≠ s.reg y) s t ∧ Frame {} s t)

/-! ## Registers, arithmetic, logic (41_arith_logic) -/

/-- R152, R154: the words and the effect of the two loads of a register. -/
def Obligations.LoadsOfRegisters : Prop :=
  ∀ (s : State) (x y : RegIdx) (nn : Byte),
    (decode (0x6#4 ++ x ++ nn) = .ok (.ldImm x nn) ∧ decode (0x8#4 ++ x ++ y ++ 0x0#4) = .ok (.ldReg x y)) ∧
    (∃ t, exec (.ldImm x nn) s = .next t ∧ t.reg x = nn ∧ Advances s t ∧ Frame { regs := [x] } s t) ∧
    (∃ t, exec (.ldReg x y) s = .next t ∧ t.reg x = s.reg y ∧ Advances s t ∧ Frame { regs := [x] } s t)

/-- R153: the word 7XNN adds modulo 256 and writes no flag. -/
def Obligations.AddImmediateWrapsWithoutFlag : Prop :=
  ∀ (s : State) (x : RegIdx) (nn : Byte), decode (0x7#4 ++ x ++ nn) = .ok (.addImm x nn) ∧
    ∃ t, exec (.addImm x nn) s = .next t ∧ (t.reg x).toNat = ((s.reg x).toNat + nn.toNat) % 256 ∧
      Advances s t ∧ Frame { regs := [x] } s t

/-- R155, R156, R157: OR, AND, XOR bit by bit; `VF` is written, with 0 after the result, exactly under
`LOGIC_CLEARS_VF`. -/
def Obligations.LogicActsBitwise : Prop :=
  ∀ (s : State) (x y : RegIdx) (i : Instr) (f : Bool → Bool → Bool),
    (i = .orReg x y ∧ f = or) ∨ (i = .andReg x y ∧ f = and) ∨ (i = .xorReg x y ∧ f = xor) →
    ∃ t, exec i s = .next t ∧ Advances s t ∧
      (s.params.logicClearsVF = false →
        (∀ k, k < 8 → (t.reg x).getLsbD k = f ((s.reg x).getLsbD k) ((s.reg y).getLsbD k)) ∧
          Frame { regs := [x] } s t) ∧
      (s.params.logicClearsVF = true →
        (x ≠ VF → ∀ k, k < 8 → (t.reg x).getLsbD k = f ((s.reg x).getLsbD k) ((s.reg y).getLsbD k)) ∧
          t.reg VF = 0x00#8 ∧ Frame { regs := [x, VF] } s t)

/-- R158: 8XY4 adds modulo 256; `VF` is 1 exactly when the exact sum is above 255, and wins in `VF`. -/
def Obligations.AddSetsCarry : Prop :=
  ∀ (s : State) (x y : RegIdx),
    ∃ t, exec (.addReg x y) s = .next t ∧
      (x ≠ VF → (t.reg x).toNat = ((s.reg x).toNat + (s.reg y).toNat) % 256) ∧
      (t.reg VF).toNat = (if (s.reg x).toNat + (s.reg y).toNat > 255 then 1 else 0) ∧
      Advances s t ∧ Frame { regs := [x, VF] } s t

/-- R159, R160: 8XY5 and 8XY7 subtract modulo 256; `VF` is 1 exactly when there is no borrow, and wins in `VF`. -/
def Obligations.SubtractionsSetNoBorrow : Prop :=
  ∀ (s : State) (x y : RegIdx),
    (∃ t, exec (.sub x y) s = .next t ∧
      (x ≠ VF → ((t.reg x).toNat : Int) = (((s.reg x).toNat : Int) - ((s.reg y).toNat : Int)) % 256) ∧
      (t.reg VF).toNat = (if (s.reg x).toNat ≥ (s.reg y).toNat then 1 else 0) ∧
      Advances s t ∧ Frame { regs := [x, VF] } s t) ∧
    (∃ t, exec (.subn x y) s = .next t ∧
      (x ≠ VF → ((t.reg x).toNat : Int) = (((s.reg y).toNat : Int) - ((s.reg x).toNat : Int)) % 256) ∧
      (t.reg VF).toNat = (if (s.reg y).toNat ≥ (s.reg x).toNat then 1 else 0) ∧
      Advances s t ∧ Frame { regs := [x, VF] } s t)

/-- R161, R162: the shifts by one of the register that `SHIFT_SOURCE` names; `VF` is the bit shifted out. -/
def Obligations.ShiftsMoveOneBit : Prop :=
  ∀ (s : State) (x y : RegIdx) (a : Nat),
    ((s.params.shiftSource = .vy ∧ a = (s.reg y).toNat) ∨ (s.params.shiftSource = .vx ∧ a = (s.reg x).toNat)) →
    (∃ t, exec (.shr x y) s = .next t ∧ (x ≠ VF → (t.reg x).toNat = a / 2) ∧ (t.reg VF).toNat = a % 2 ∧
      Advances s t ∧ Frame { regs := [x, VF] } s t) ∧
    (∃ t, exec (.shl x y) s = .next t ∧ (x ≠ VF → (t.reg x).toNat = 2 * a % 256) ∧ (t.reg VF).toNat = a / 128 ∧
      Advances s t ∧ Frame { regs := [x, VF] } s t)

/-- R163, R11: CXNN takes one fresh free byte and stores it under the mask: the bits outside `NN` are 0 and nothing is
said of the others but that they are the draw's. -/
def Obligations.RandomByteIsMasked : Prop :=
  ∀ (s : State) (x : RegIdx) (nn : Byte),
    ∃ t, exec (.rnd x nn) s = .next t ∧ t.draws = s.draws + 1 ∧
      (∀ k, k < 8 → (t.reg x).getLsbD k = ((Config.draw s.draws).getLsbD k && nn.getLsbD k)) ∧
      Advances s t ∧ Frame { regs := [x], draws := true } s t

/-! ## Index register and memory (42_memory_index, 20_memory) -/

/-- R190, R191: ANNN loads `I`; FX1E adds modulo 65536 and writes no flag. -/
def Obligations.IndexLoadAndAdd : Prop :=
  ∀ (s : State) (x : RegIdx) (nnn : Addr12),
    (∃ t, exec (.ldI nnn) s = .next t ∧ t.i.toNat = nnn.toNat ∧ Advances s t ∧ Frame { i := true } s t) ∧
    (∃ t, exec (.addI x) s = .next t ∧ t.i.toNat = (s.i.toNat + (s.reg x).toNat) % 65536 ∧ Advances s t ∧
      Frame { i := true } s t)

/-- R192: FX29 points `I` at the glyph of a digit; a value above 0xF is refused or masked, by
`NIBBLE_OPERAND_POLICY`. -/
def Obligations.GlyphAddressOrRefusal : Prop :=
  ∀ (s : State) (x : RegIdx), s.params.legal →
    ((s.reg x).toNat ≤ 0xF ∨ s.params.nibblePolicy = .mask →
      ∃ t, exec (.ldF x) s = .next t ∧ t.i.toNat = s.params.fontBase + 5 * ((s.reg x).toNat % 16) ∧ Advances s t ∧
        Frame { i := true } s t) ∧
    ((s.reg x).toNat > 0xF → s.params.nibblePolicy = .refuse →
      ∃ t, exec (.ldF x) s = .next t ∧ Refuses .fontDigitOutOfRange s t)

/-- R193: FX33 writes hundreds, tens and units at `I`, `I+1`, `I+2`; `I` does not change. -/
def Obligations.BcdStoresThreeDigits : Prop :=
  ∀ (s : State) (x : RegIdx), Memory.wf s.params s.mem → (∀ k, k < 3 → ¬ WriteFails s.params (s.i.toNat + k)) →
    ∃ t, exec (.ldB x) s = .next t ∧ (t.readByte s.i.toNat).toNat = (s.reg x).toNat / 100 ∧
      (t.readByte (s.i.toNat + 1)).toNat = (s.reg x).toNat / 10 % 10 ∧
      (t.readByte (s.i.toNat + 2)).toNat = (s.reg x).toNat % 10 ∧
      Advances s t ∧ Frame { base := s.i.toNat, bytes := 3 } s t

/-- R194, R196: FX55 stores `V0..V[X]` at `I..I+X` and adds what `BULK_INDEX_INCREMENT` says to `I`. -/
def Obligations.BulkStoreWritesTheRegisters : Prop :=
  ∀ (s : State) (x : RegIdx), Memory.wf s.params s.mem →
    (∀ k, k ≤ x.toNat → ¬ WriteFails s.params (s.i.toNat + k)) →
    ∃ t, exec (.store x) s = .next t ∧
      (∀ r : RegIdx, r.toNat ≤ x.toNat → t.readByte (s.i.toNat + r.toNat) = s.reg r) ∧
      t.i.toNat = s.i.toNat + bulkAmount s.params x ∧ Advances s t ∧
      Frame { i := true, base := s.i.toNat, bytes := x.toNat + 1 } s t

/-- R195, R196: FX65 loads `V0..V[X]` from `I..I+X` and adds what `BULK_INDEX_INCREMENT` says to `I`; the registers
above `X`, and every byte of memory, stay. -/
def Obligations.BulkLoadReadsTheRegisters : Prop :=
  ∀ (s : State) (x : RegIdx), s.i.toNat + x.toNat ≤ 4095 →
    ∃ t, exec (.load x) s = .next t ∧
      (∀ r : RegIdx, t.reg r = if r.toNat ≤ x.toNat then s.readByte (s.i.toNat + r.toNat) else s.reg r) ∧
      t.i.toNat = s.i.toNat + bulkAmount s.params x ∧ Advances s t ∧
      Frame { regs := regsUpTo x, i := true } s t

/-- R66, R67, R72, R81: FX33, FX55, FX65 and DXYN with a failing address halt with `AddressOutOfRange` of the lowest
one: the addresses `I + k` are exact. -/
def Obligations.LowestFailingAddressIsReported : Prop :=
  ∀ (s : State) (x y : RegIdx) (n : BitVec 4) (a : Nat),
    (LowestFailing (WriteFails s.params) s.i.toNat 3 a →
      ∃ t, exec (.ldB x) s = .next t ∧ Halts (.addressOutOfRange a) s t) ∧
    (LowestFailing (WriteFails s.params) s.i.toNat (x.toNat + 1) a →
      ∃ t, exec (.store x) s = .next t ∧ Halts (.addressOutOfRange a) s t) ∧
    (LowestFailing (· > 4095) s.i.toNat (x.toNat + 1) a →
      ∃ t, exec (.load x) s = .next t ∧ Halts (.addressOutOfRange a) s t) ∧
    (n ≠ 0x0#4 → LowestFailing (· > 4095) s.i.toNat n.toNat a →
      ∃ t, exec (.drw x y n) s = .next t ∧ Halts (.addressOutOfRange a) s t)

/-! ## Display (43_display) -/

/-- R224, R221: the word 00E0 clears every pixel and changes nothing else but `PC`. -/
def Obligations.ClsClearsEveryPixel : Prop :=
  ∀ s : State, decode 0x00E0#16 = .ok .cls ∧ ∃ t, exec .cls s = .next t ∧ (∀ px py, pixel t.fb px py = false) ∧ Advances s t ∧
    Frame { fb := true } s t

/-- R225, R222, R223: DXYN with `N` at least 1 XORs each pixel with the sprite bit over it, around the edges, and sets
`VF` to 1 exactly when some pixel went from set to unset; the coordinates are the old registers. -/
def Obligations.DrawXorsEachPixelOnce : Prop :=
  ∀ (s : State) (x y : RegIdx) (n : BitVec 4), n ≠ 0x0#4 → s.i.toNat + n.toNat ≤ 4096 →
    ∃ t, exec (.drw x y n) s = .next t ∧
      (∀ px py, px < 64 → py < 32 → pixel t.fb px py =
        xor (pixel s.fb px py) (spriteCovers s (s.reg x).toNat (s.reg y).toNat n.toNat px py)) ∧
      (t.reg VF = 0x01#8 ∧ (∃ px py, px < 64 ∧ py < 32 ∧ pixel s.fb px py = true ∧ pixel t.fb px py = false) ∨
        t.reg VF = 0x00#8 ∧ ∀ px py, px < 64 → py < 32 → pixel s.fb px py = true → pixel t.fb px py = true) ∧
      Advances s t ∧ Frame { regs := [VF], fb := true } s t

/-- R225, R97: DXY0 is refused, or draws nothing and clears `VF`, by `DRAW_ZERO_HEIGHT`. -/
def Obligations.ZeroHeightSpriteByPolicy : Prop :=
  ∀ (s : State) (x y : RegIdx),
    (s.params.zeroHeight = .refuse → ∃ t, exec (.drw x y 0x0#4) s = .next t ∧ Refuses .zeroHeightSprite s t) ∧
    (s.params.zeroHeight = .noRows →
      ∃ t, exec (.drw x y 0x0#4) s = .next t ∧ t.reg VF = 0x00#8 ∧ Advances s t ∧ Frame { regs := [VF] } s t)

/-- R222, R223 (and R227's first clause): drawing the same sprite twice at the same coordinates restores the framebuffer
exactly. The second draw collides exactly when the first one set a pixel, so always on an empty framebuffer when the
sprite has a set bit; R227 says it always does, which R222 and R223 do not give (log 28). The last part says the same of
two DXYN steps whose coordinates are equal (R225): the second one sets `VF` to 1, not 0, exactly when the sprite covers a
pixel that was unset before the first. -/
def Obligations.DrawingTwiceRestores : Prop :=
  (∀ (x y : Nat) (rows : List Byte) (fb : Framebuffer), rows.length ≤ 15 →
    (drawSprite x y rows (drawSprite x y rows fb).2).2 = fb ∧
      ((drawSprite x y rows (drawSprite x y rows fb).2).1 = true ↔
        ∃ px py, px < 64 ∧ py < 32 ∧ pixel fb px py = false ∧ pixel (drawSprite x y rows fb).2 px py = true) ∧
      ((∃ b ∈ rows, b ≠ 0x00#8) → (∀ px py, pixel fb px py = false) →
        (drawSprite x y rows (drawSprite x y rows fb).2).1 = true)) ∧
  (∀ (s t : State) (x y : RegIdx) (n : BitVec 4), n ≠ 0x0#4 → s.i.toNat + n.toNat ≤ 4096 →
    exec (.drw x y n) s = .next t → t.reg x = s.reg x → t.reg y = s.reg y →
    ∃ u, exec (.drw x y n) t = .next u ∧ u.fb = s.fb ∧
      (u.reg VF = 0x01#8 ∨ u.reg VF = 0x00#8) ∧
      (u.reg VF = 0x01#8 ↔ ∃ px py, px < 64 ∧ py < 32 ∧ pixel s.fb px py = false ∧
        spriteCovers s (s.reg x).toNat (s.reg y).toNat n.toNat px py = true))

/-! ## Timers and input (44_timers, 45_input) -/

/-- R242, R243, R244: the words FX07, FX15 and FX18: FX07 reads `DT`, FX15 writes it, FX18 writes `ST`. -/
def Obligations.TimerRegistersAreMoved : Prop :=
  ∀ (s : State) (x : RegIdx),
    (decode (0xF#4 ++ x ++ 0x07#8) = .ok (.ldFromDt x) ∧ decode (0xF#4 ++ x ++ 0x15#8) = .ok (.ldDt x) ∧
      decode (0xF#4 ++ x ++ 0x18#8) = .ok (.ldSt x)) ∧
    (∃ t, exec (.ldFromDt x) s = .next t ∧ t.reg x = s.dt ∧ Advances s t ∧ Frame { regs := [x] } s t) ∧
    (∃ t, exec (.ldDt x) s = .next t ∧ t.dt = s.reg x ∧ Advances s t ∧ Frame { dt := true } s t) ∧
    (∃ t, exec (.ldSt x) s = .next t ∧ t.st = s.reg x ∧ Advances s t ∧ Frame { st := true } s t)

/-- R252, R253: EX9E and EXA1 skip by the bit of the key in `V[X]`; a value above 0xF is refused or masked, by
`NIBBLE_OPERAND_POLICY`. -/
def Obligations.KeySkipsReadTheBitmap : Prop :=
  ∀ (s : State) (x : RegIdx),
    ((s.reg x).toNat ≤ 0xF ∨ s.params.nibblePolicy = .mask →
      (∃ t, exec (.skp x) s = .next t ∧ Skips (s.keys[(s.reg x).toNat % 16]? = some true) s t ∧ Frame {} s t) ∧
      (∃ t, exec (.sknp x) s = .next t ∧ Skips (s.keys[(s.reg x).toNat % 16]? = some false) s t ∧ Frame {} s t)) ∧
    ((s.reg x).toNat > 0xF → s.params.nibblePolicy = .refuse →
      (∃ t, exec (.skp x) s = .next t ∧ Refuses .keyIndexOutOfRange s t) ∧
      (∃ t, exec (.sknp x) s = .next t ∧ Refuses .keyIndexOutOfRange s t))

/-- R254: FX0A enters the wait; `PC` and the register do not change yet, whatever keys are held. -/
def Obligations.KeyWaitBegins : Prop :=
  ∀ (s : State) (x : RegIdx),
    ∃ t, exec (.ldKey x) s = .next t ∧ t.ctl = .waitingForKey x ∧ t.pc = s.pc ∧ Frame { ctl := true } s t

/-! ## Reset and load (10_state R43, 70_reset R331, 60_exceptions R275, R300, R304) -/

/-- R43, R300, R331: what creation and the load of a fitting image leave, for every configuration and image. -/
def Obligations.ResetValuesAfterLoad : Prop :=
  ∀ (p : Params) (c : ConfigRequest) (image : List Byte), p.legal → c.legal = true →
    image.length ≤ 4096 - p.loadOffset →
    ∃ s, boot p c image = some s ∧ s.pc.toNat = p.loadOffset ∧ (∀ r, s.reg r = 0x00#8) ∧ s.i = 0x0000#16 ∧
      s.sp = 0x00#8 ∧ (∀ j, j < 16 → s.stack[j]? = some 0x0000#16) ∧ s.dt = 0x00#8 ∧ s.st = 0x00#8 ∧
      (∀ px py, pixel s.fb px py = false) ∧ (∀ k, s.isPressed k = false) ∧
      (∀ a, a < 4096 → s.readByte a =
        if p.fontBase ≤ a ∧ a < p.fontBase + 80 then fontBytes.getD (a - p.fontBase) 0x00#8
        else if p.loadOffset ≤ a ∧ a < p.loadOffset + image.length then image.getD (a - p.loadOffset) 0x00#8
        else 0x00#8) ∧
      s.ctl = .running ∧ s.fault = none ∧ s.refused = none ∧ s.time = 0 ∧ s.nInstr = 0 ∧ s.nTick = 0 ∧
      s.nFrame = 0 ∧ (s.config.instructionRateHz : Rat) = c.instructionRateHz ∧
      (s.config.frameRateHz : Rat) = c.frameRateHz ∧ s.config.beepFrequencyHz = c.beepFrequencyHz ∧
      s.config.gradientColoring = c.gradientColoring ∧ s.params = p ∧ s.Wf

/-- R275, R300: an image longer than `4096 - LOAD_OFFSET` raises `ProgramTooLarge` with its length and writes no
memory; the core is halted from the start, and whatever calls its host makes no slot is ever processed. -/
def Obligations.TooLargeImageHaltsAtLoad : Prop :=
  ∀ (p : Params) (c : ConfigRequest) (image : List Byte), p.legal → c.legal = true →
    4096 - p.loadOffset < image.length →
    ∃ s, boot p c image = some s ∧ s.ctl = .halted ∧
      s.fault = some ⟨.programTooLarge image.length, BitVec.ofNat 16 p.loadOffset⟩ ∧ s.mem = [] ∧
      ∀ (calls : List HostCall) (k : Nat) (t : State),
        Host.Core.run Sys2Proof.core k { s with calls := calls } = .next t → t.nInstr = 0 ∧ t.nTick = 0 ∧ t.nFrame = 0

/-- R304: `create` refuses exactly a rate that is not a positive integer and a beep frequency that is not positive. -/
def Obligations.CreateRefusesBadConfigurations : Prop :=
  ∀ (p : Params) (c : ConfigRequest),
    create p c = none ↔
      ¬ ((∃ n : Nat, 0 < n ∧ c.instructionRateHz = (n : Rat)) ∧ (∃ n : Nat, 0 < n ∧ c.frameRateHz = (n : Rat)) ∧
        0 < c.beepFrequencyHz)
end

