-- ==== Sys2Proof/Laws/Decode.lean ====
section
/-! SUPPORT. The bits of the instruction words and of their fields (30_encoding R91), for proofs about encodings. -/

namespace Sys2Proof

theorem getLsbD_wordNNN (op : BitVec 4) (nnn : Addr12) (k : Nat) :
    (wordNNN op nnn).getLsbD k = if k < 12 then nnn.getLsbD k else op.getLsbD (k - 12) := by
  show BitVec.getLsbD (w := 4 + 12) (op ++ nnn) k = _
  rw [BitVec.getLsbD_append]

theorem getLsbD_wordXNN (op : BitVec 4) (x : RegIdx) (nn : Byte) (k : Nat) :
    (wordXNN op x nn).getLsbD k =
      if k < 8 then nn.getLsbD k else if k < 12 then x.getLsbD (k - 8) else op.getLsbD (k - 12) := by
  show BitVec.getLsbD (w := 4 + 4 + 8) (op ++ x ++ nn) k = _
  rw [BitVec.getLsbD_append, BitVec.getLsbD_append]
  by_cases h : k < 8
  · simp [h]
  · by_cases h2 : k < 12
    · have : k - 8 < 4 := by omega
      simp [h, h2, this]
    · have h3 : ¬ k - 8 < 4 := by omega
      have h4 : k - 8 - 4 = k - 12 := by omega
      simp [h, h2, h3, h4]

theorem getLsbD_wordXYN (op : BitVec 4) (x y : RegIdx) (n : BitVec 4) (k : Nat) :
    (wordXYN op x y n).getLsbD k =
      if k < 4 then n.getLsbD k else if k < 8 then y.getLsbD (k - 4)
      else if k < 12 then x.getLsbD (k - 8) else op.getLsbD (k - 12) := by
  show BitVec.getLsbD (w := 4 + 4 + 4 + 4) (op ++ x ++ y ++ n) k = _
  rw [BitVec.getLsbD_append, BitVec.getLsbD_append, BitVec.getLsbD_append]
  by_cases h : k < 4
  · simp [h]
  · by_cases h2 : k < 8
    · have : k - 4 < 4 := by omega
      simp [h, h2, this]
    · by_cases h3 : k < 12
      · have a : ¬ k - 4 < 4 := by omega
        have b : k - 4 - 4 < 4 := by omega
        have c : k - 4 - 4 = k - 8 := by omega
        have d : k - 8 < 4 := by omega
        simp [h, h2, h3, a, c, d]
      · have a : ¬ k - 4 < 4 := by omega
        have c : k - 4 - 4 = k - 8 := by omega
        have d : ¬ k - 8 < 4 := by omega
        have e : k - 8 - 4 = k - 12 := by omega
        simp [h, h2, h3, a, c, d, e]

theorem getLsbD_wordOfBytes (hi lo : Byte) (k : Nat) :
    (wordOfBytes hi lo).getLsbD k = if k < 8 then lo.getLsbD k else hi.getLsbD (k - 8) := by
  show BitVec.getLsbD (w := 8 + 8) (hi ++ lo) k = _
  rw [BitVec.getLsbD_append]

theorem getLsbD_fieldOp (w : Half) (k : Nat) : (fieldOp w).getLsbD k = (decide (k < 4) && w.getLsbD (12 + k)) := by
  simp [fieldOp]

theorem getLsbD_fieldX (w : Half) (k : Nat) : (fieldX w).getLsbD k = (decide (k < 4) && w.getLsbD (8 + k)) := by
  simp [fieldX]

theorem getLsbD_fieldY (w : Half) (k : Nat) : (fieldY w).getLsbD k = (decide (k < 4) && w.getLsbD (4 + k)) := by
  simp [fieldY]

theorem getLsbD_fieldN (w : Half) (k : Nat) : (fieldN w).getLsbD k = (decide (k < 4) && w.getLsbD k) := by
  simp [fieldN]

theorem getLsbD_fieldNN (w : Half) (k : Nat) : (fieldNN w).getLsbD k = (decide (k < 8) && w.getLsbD k) := by
  simp [fieldNN]

theorem getLsbD_fieldNNN (w : Half) (k : Nat) : (fieldNNN w).getLsbD k = (decide (k < 12) && w.getLsbD k) := by
  simp [fieldNNN]

end Sys2Proof
end

