-- ==== Sys2Proof/Laws/Display.lean ====
section
/-! SUPPORT. What the framebuffer's primitives do, said once: which pixels a sprite covers, that drawing XORs exactly
those, and when it reports a collision (43_display R220 to R223). A proof cites these and unfolds none of the folds. -/

namespace Sys2Proof.Machine

/-- A flip toggles one pixel and no other. -/
theorem pixel_flipPixel (fb : Framebuffer) (x y px py : Nat) :
    pixel (flipPixel fb x y) px py =
      xor (pixel fb px py) (decide (px % 64 = x % 64) && decide (py % 32 = y % 32)) := by
  simp only [pixel, flipPixel, Vector.getElem_set]
  by_cases hy : y % 32 = py % 32
  · by_cases hx : x % 64 = px % 64
    · simp [hx, hy]
    · simp [hy, hx, Ne.symm hx]
  · simp [hy, Ne.symm hy]

/-- `clear()` leaves no pixel set (R221). -/
@[simp] theorem pixel_clearedFb (px py : Nat) : pixel clearedFb px py = false := by
  simp [pixel, clearedFb]

/-- Two framebuffers with the same pixels are the same. -/
theorem framebuffer_ext (f g : Framebuffer) (h : ∀ px py, px < 64 → py < 32 → pixel f px py = pixel g px py) :
    f = g := by
  apply Vector.ext
  intro y hy
  apply Vector.ext
  intro x hx
  simpa [pixel, Nat.mod_eq_of_lt hx, Nat.mod_eq_of_lt hy] using h x y hx hy

/-- Whether a sprite row drawn from column `x` has a set bit over column `px` (R222). -/
def rowBit (x : Nat) (b : Byte) (px : Nat) : Bool :=
  decide ((px + (64 - x % 64)) % 64 < 8) && b.getLsbD (7 - (px + (64 - x % 64)) % 64)

/-- Whether a sprite drawn at column `x`, row `y` has a set bit over the pixel `(px, py)` (R222). -/
def spriteBit (x y : Nat) (rows : List Byte) (px py : Nat) : Bool :=
  match rows[(py + (32 - y % 32)) % 32]? with
  | some b => rowBit x b px
  | none => false

/-- What a stretch of drawing does: it XORs the pixels of `cover`, and collides when one of them was set. -/
def Draws (cover : Nat → Nat → Bool) (c d : Bool × Framebuffer) : Prop :=
  (∀ px py, pixel d.2 px py = xor (pixel c.2 px py) (cover px py)) ∧
    (d.1 = true ↔ c.1 = true ∨ ∃ px py, px < 64 ∧ py < 32 ∧ cover px py = true ∧ pixel c.2 px py = true)

/-- Drawing nothing. -/
theorem Draws.refl (c : Bool × Framebuffer) : Draws (fun _ _ => false) c c := by
  constructor <;> simp

/-- Drawing over disjoint pixels adds up. -/
theorem Draws.trans {p q r : Nat → Nat → Bool} {c d e : Bool × Framebuffer} (h : Draws p c d) (k : Draws q d e)
    (disj : ∀ px py, p px py = true → q px py = false) (hr : ∀ px py, r px py = (p px py || q px py)) :
    Draws r c e := by
  constructor
  · intro px py
    rw [k.1, h.1, hr]
    cases hp : p px py
    · simp
    · simp [disj px py hp]
  · rw [k.2, h.2]
    constructor
    · rintro ((h | ⟨px, py, hx, hy, hp, hc⟩) | ⟨px, py, hx, hy, hq, hd⟩)
      · exact .inl h
      · exact .inr ⟨px, py, hx, hy, by simp [hr, hp], hc⟩
      · refine .inr ⟨px, py, hx, hy, by simp [hr, hq], ?_⟩
        rw [h.1] at hd
        cases hp : p px py
        · simpa [hp] using hd
        · rw [disj px py hp] at hq; cases hq
    · rintro (h | ⟨px, py, hx, hy, hp, hc⟩)
      · exact .inl (.inl h)
      · rw [hr] at hp
        cases hpp : p px py
        · refine .inr ⟨px, py, hx, hy, by simpa [hpp] using hp, ?_⟩
          rw [h.1, hpp, hc]; rfl
        · exact .inl (.inr ⟨px, py, hx, hy, hpp, hc⟩)

/-- One set sprite bit (R222, R223). -/
theorem drawBit_draws (x y : Nat) (c : Bool × Framebuffer) :
    Draws (fun px py => decide (px % 64 = x % 64) && decide (py % 32 = y % 32)) c (drawBit x y c) := by
  constructor
  · intro px py; exact pixel_flipPixel _ _ _ _ _
  · simp only [drawBit, Bool.or_eq_true, Bool.and_eq_true, decide_eq_true_eq]
    constructor
    · rintro (h | h)
      · exact .inl h
      · refine .inr ⟨x % 64, y % 32, Nat.mod_lt _ (by decide), Nat.mod_lt _ (by decide), by simp, ?_⟩
        simpa [pixel] using h
    · rintro (h | ⟨px, py, hx, hy, ⟨ex, ey⟩, h⟩)
      · exact .inl h
      · refine .inr ?_
        simpa [pixel, ex, ey] using h

/-- One sprite row (R222). -/
theorem drawRow_draws (x y : Nat) (b : Byte) (c : Bool × Framebuffer) :
    Draws (fun px py => decide (py % 32 = y % 32) && rowBit x b px) c (drawRow x y b c) := by
  have key : ∀ n, n ≤ 8 →
      Draws (fun px py => decide (py % 32 = y % 32) && (decide ((px + (64 - x % 64)) % 64 < n) && rowBit x b px)) c
        ((List.range n).foldl (fun c k => if b.getLsbD (7 - k) then drawBit (x + k) y c else c) c) := by
    intro n
    induction n with
    | zero => intro _; simpa using Draws.refl c
    | succ n ih =>
      intro hn
      have ih := ih (by omega)
      rw [List.range_succ, List.foldl_append]
      simp only [List.foldl_cons, List.foldl_nil]
      have same : ∀ px, (px + (64 - x % 64)) % 64 = n ↔ px % 64 = (x + n) % 64 := by intro px; omega
      split
      · rename_i hb
        refine ih.trans (drawBit_draws (x + n) y _) ?_ ?_
        · intro px py
          simp only [Bool.and_eq_true, decide_eq_true_eq, Bool.and_eq_false_iff, decide_eq_false_iff_not]
          rintro ⟨-, hlt, -⟩
          exact .inl fun e => by have := (same px).2 e; omega
        · intro px py
          by_cases hy : py % 32 = y % 32
          · by_cases e : (px + (64 - x % 64)) % 64 = n
            · have hr : rowBit x b px = true := by simp [rowBit, e, hb]; omega
              simp [hy, (same px).1 e, hr, e]
            · have e2 : ¬ px % 64 = (x + n) % 64 := fun h => e ((same px).2 h)
              have e3 : (px + (64 - x % 64)) % 64 < n + 1 ↔ (px + (64 - x % 64)) % 64 < n := by omega
              simp [hy, e2, e3]
          · simp [hy]
      · rename_i hb
        have cov : ∀ px, (decide ((px + (64 - x % 64)) % 64 < n + 1) && rowBit x b px) =
            (decide ((px + (64 - x % 64)) % 64 < n) && rowBit x b px) := by
          intro px
          by_cases e : (px + (64 - x % 64)) % 64 = n
          · have hr : rowBit x b px = false := by
              simp only [rowBit, e]; simp at hb; simp [hb]
            simp [hr]
          · have e3 : (px + (64 - x % 64)) % 64 < n + 1 ↔ (px + (64 - x % 64)) % 64 < n := by omega
            simp [e3]
        simpa only [cov] using ih
  have h := key 8 (le_refl _)
  have cov : ∀ px, (decide ((px + (64 - x % 64)) % 64 < 8) && rowBit x b px) = rowBit x b px := by
    intro px; simp only [rowBit]; rw [← Bool.and_assoc, Bool.and_self]
  simp only [cov] at h
  exact h

/-- A sprite row by row. -/
theorem spriteBit_cons (x y : Nat) (b : Byte) (bs : List Byte) (h : bs.length < 32) (px py : Nat) :
    spriteBit x y (b :: bs) px py =
      ((decide (py % 32 = y % 32) && rowBit x b px) || spriteBit x (y + 1) bs px py) ∧
    (py % 32 = y % 32 → spriteBit x (y + 1) bs px py = false) := by
  by_cases e : py % 32 = y % 32
  · have e1 : (py + (32 - y % 32)) % 32 = 0 := by omega
    have e2 : (py + (32 - (y + 1) % 32)) % 32 = 31 := by omega
    have e3 : bs[31]? = none := by simp; omega
    simp [spriteBit, e, e1, e2, e3]
  · have e1 : (py + (32 - y % 32)) % 32 = (py + (32 - (y + 1) % 32)) % 32 + 1 := by omega
    simp [spriteBit, e, e1]

/-- The rows of a sprite (R222). -/
theorem drawRows_draws (x y : Nat) (rows : List Byte) (c : Bool × Framebuffer) (h : rows.length ≤ 32) :
    Draws (spriteBit x y rows) c (drawRows x y rows c) := by
  induction rows generalizing y c with
  | nil =>
    have : spriteBit x y [] = fun _ _ => false := by funext px py; simp [spriteBit]
    rw [this]; exact Draws.refl c
  | cons b bs ih =>
    have hl : bs.length < 32 := by simp at h; omega
    refine (drawRow_draws x y b c).trans (ih (y + 1) _ (by omega)) ?_ ?_
    · intro px py hp
      simp only [Bool.and_eq_true, decide_eq_true_eq] at hp
      exact (spriteBit_cons x y b bs hl px py).2 hp.1
    · intro px py; exact (spriteBit_cons x y b bs hl px py).1

/-- `draw_sprite` (R222, R223): every pixel is XORed with the sprite's bit over it, and the collision bit is set exactly
when a covered pixel was set. -/
theorem drawSprite_draws (x y : Nat) (rows : List Byte) (fb : Framebuffer) (h : rows.length ≤ 32) :
    Draws (spriteBit x y rows) (false, fb) (drawSprite x y rows fb) := by
  have := drawRows_draws (x % 64) (y % 32) rows (false, fb) h
  have e : spriteBit (x % 64) (y % 32) rows = spriteBit x y rows := by
    funext px py; simp [spriteBit, rowBit]
  rwa [e] at this

/-- The words of R223 and of R227 contradict each other: no `draw_sprite`, whatever pixels it toggles, reports a
collision exactly when some pixel went from set to unset (R223) and also, drawn twice, restores the framebuffer and
always collides the second time when the sprite has a set bit (both clauses of R227). On a full framebuffer the second
draw restores the full one, so it unsets nothing (log 28). -/
theorem r223_contradicts_r227 (draw : Nat → Nat → List Byte → Framebuffer → Bool × Framebuffer) :
    ¬ ((∀ x y rows fb, (draw x y rows fb).1 = true ↔
          ∃ px py, px < 64 ∧ py < 32 ∧ pixel fb px py = true ∧ pixel (draw x y rows fb).2 px py = false) ∧
        (∀ x y rows fb, (draw x y rows (draw x y rows fb).2).2 = fb) ∧
        (∀ x y rows fb, (∃ b ∈ rows, b ≠ 0x00#8) → (draw x y rows (draw x y rows fb).2).1 = true)) := by
  rintro ⟨r223, restores, collides⟩
  let full : Framebuffer := Vector.replicate 32 (Vector.replicate 64 true)
  obtain ⟨px, py, -, -, -, unset⟩ := (r223 _ _ _ _).1 (collides 0 0 [0x80#8] full ⟨_, List.mem_singleton_self _, by decide⟩)
  rw [restores] at unset
  simp [pixel, full] at unset

end Sys2Proof.Machine
end

