-- ==== Sys2Proof/Laws/State.lean ====
section
/-! SUPPORT. What each update of the state does to each field: one lemma per field per update, true by rfl. -/

namespace Sys2Proof.Machine

/-! `State.setReg` -/

@[simp] theorem State.setReg_v (s : State) (r : RegIdx) (b : Byte) : (s.setReg r b).v = s.v.set r.toNat b r.isLt := rfl
@[simp] theorem State.setReg_i (s : State) (r : RegIdx) (b : Byte) : (s.setReg r b).i = s.i := rfl
@[simp] theorem State.setReg_pc (s : State) (r : RegIdx) (b : Byte) : (s.setReg r b).pc = s.pc := rfl
@[simp] theorem State.setReg_sp (s : State) (r : RegIdx) (b : Byte) : (s.setReg r b).sp = s.sp := rfl
@[simp] theorem State.setReg_stack (s : State) (r : RegIdx) (b : Byte) : (s.setReg r b).stack = s.stack := rfl
@[simp] theorem State.setReg_dt (s : State) (r : RegIdx) (b : Byte) : (s.setReg r b).dt = s.dt := rfl
@[simp] theorem State.setReg_st (s : State) (r : RegIdx) (b : Byte) : (s.setReg r b).st = s.st := rfl
@[simp] theorem State.setReg_fb (s : State) (r : RegIdx) (b : Byte) : (s.setReg r b).fb = s.fb := rfl
@[simp] theorem State.setReg_keys (s : State) (r : RegIdx) (b : Byte) : (s.setReg r b).keys = s.keys := rfl
@[simp] theorem State.setReg_mem (s : State) (r : RegIdx) (b : Byte) : (s.setReg r b).mem = s.mem := rfl
@[simp] theorem State.setReg_ctl (s : State) (r : RegIdx) (b : Byte) : (s.setReg r b).ctl = s.ctl := rfl
@[simp] theorem State.setReg_fault (s : State) (r : RegIdx) (b : Byte) : (s.setReg r b).fault = s.fault := rfl
@[simp] theorem State.setReg_refused (s : State) (r : RegIdx) (b : Byte) : (s.setReg r b).refused = s.refused := rfl
@[simp] theorem State.setReg_config (s : State) (r : RegIdx) (b : Byte) : (s.setReg r b).config = s.config := rfl
@[simp] theorem State.setReg_params (s : State) (r : RegIdx) (b : Byte) : (s.setReg r b).params = s.params := rfl
@[simp] theorem State.setReg_time (s : State) (r : RegIdx) (b : Byte) : (s.setReg r b).time = s.time := rfl
@[simp] theorem State.setReg_nInstr (s : State) (r : RegIdx) (b : Byte) : (s.setReg r b).nInstr = s.nInstr := rfl
@[simp] theorem State.setReg_nTick (s : State) (r : RegIdx) (b : Byte) : (s.setReg r b).nTick = s.nTick := rfl
@[simp] theorem State.setReg_nFrame (s : State) (r : RegIdx) (b : Byte) : (s.setReg r b).nFrame = s.nFrame := rfl
@[simp] theorem State.setReg_draws (s : State) (r : RegIdx) (b : Byte) : (s.setReg r b).draws = s.draws := rfl
@[simp] theorem State.setReg_ties (s : State) (r : RegIdx) (b : Byte) : (s.setReg r b).ties = s.ties := rfl
@[simp] theorem State.setReg_calls (s : State) (r : RegIdx) (b : Byte) : (s.setReg r b).calls = s.calls := rfl
@[simp] theorem State.setReg_sent (s : State) (r : RegIdx) (b : Byte) : (s.setReg r b).sent = s.sent := rfl
@[simp] theorem State.setReg_written (s : State) (r : RegIdx) (b : Byte) : (s.setReg r b).written = s.written := rfl

/-! `State.setStack` -/

@[simp] theorem State.setStack_v (s : State) (e : Vector Half 16) (p : Byte) : (s.setStack e p).v = s.v := rfl
@[simp] theorem State.setStack_i (s : State) (e : Vector Half 16) (p : Byte) : (s.setStack e p).i = s.i := rfl
@[simp] theorem State.setStack_pc (s : State) (e : Vector Half 16) (p : Byte) : (s.setStack e p).pc = s.pc := rfl
@[simp] theorem State.setStack_sp (s : State) (e : Vector Half 16) (p : Byte) : (s.setStack e p).sp = p := rfl
@[simp] theorem State.setStack_stack (s : State) (e : Vector Half 16) (p : Byte) : (s.setStack e p).stack = e := rfl
@[simp] theorem State.setStack_dt (s : State) (e : Vector Half 16) (p : Byte) : (s.setStack e p).dt = s.dt := rfl
@[simp] theorem State.setStack_st (s : State) (e : Vector Half 16) (p : Byte) : (s.setStack e p).st = s.st := rfl
@[simp] theorem State.setStack_fb (s : State) (e : Vector Half 16) (p : Byte) : (s.setStack e p).fb = s.fb := rfl
@[simp] theorem State.setStack_keys (s : State) (e : Vector Half 16) (p : Byte) : (s.setStack e p).keys = s.keys := rfl
@[simp] theorem State.setStack_mem (s : State) (e : Vector Half 16) (p : Byte) : (s.setStack e p).mem = s.mem := rfl
@[simp] theorem State.setStack_ctl (s : State) (e : Vector Half 16) (p : Byte) : (s.setStack e p).ctl = s.ctl := rfl
@[simp] theorem State.setStack_fault (s : State) (e : Vector Half 16) (p : Byte) : (s.setStack e p).fault = s.fault := rfl
@[simp] theorem State.setStack_refused (s : State) (e : Vector Half 16) (p : Byte) : (s.setStack e p).refused = s.refused := rfl
@[simp] theorem State.setStack_config (s : State) (e : Vector Half 16) (p : Byte) : (s.setStack e p).config = s.config := rfl
@[simp] theorem State.setStack_params (s : State) (e : Vector Half 16) (p : Byte) : (s.setStack e p).params = s.params := rfl
@[simp] theorem State.setStack_time (s : State) (e : Vector Half 16) (p : Byte) : (s.setStack e p).time = s.time := rfl
@[simp] theorem State.setStack_nInstr (s : State) (e : Vector Half 16) (p : Byte) : (s.setStack e p).nInstr = s.nInstr := rfl
@[simp] theorem State.setStack_nTick (s : State) (e : Vector Half 16) (p : Byte) : (s.setStack e p).nTick = s.nTick := rfl
@[simp] theorem State.setStack_nFrame (s : State) (e : Vector Half 16) (p : Byte) : (s.setStack e p).nFrame = s.nFrame := rfl
@[simp] theorem State.setStack_draws (s : State) (e : Vector Half 16) (p : Byte) : (s.setStack e p).draws = s.draws := rfl
@[simp] theorem State.setStack_ties (s : State) (e : Vector Half 16) (p : Byte) : (s.setStack e p).ties = s.ties := rfl
@[simp] theorem State.setStack_calls (s : State) (e : Vector Half 16) (p : Byte) : (s.setStack e p).calls = s.calls := rfl
@[simp] theorem State.setStack_sent (s : State) (e : Vector Half 16) (p : Byte) : (s.setStack e p).sent = s.sent := rfl
@[simp] theorem State.setStack_written (s : State) (e : Vector Half 16) (p : Byte) : (s.setStack e p).written = s.written := rfl

/-! `State.setPc` -/

@[simp] theorem State.setPc_v (s : State) (a : Half) : (s.setPc a).v = s.v := rfl
@[simp] theorem State.setPc_i (s : State) (a : Half) : (s.setPc a).i = s.i := rfl
@[simp] theorem State.setPc_pc (s : State) (a : Half) : (s.setPc a).pc = a := rfl
@[simp] theorem State.setPc_sp (s : State) (a : Half) : (s.setPc a).sp = s.sp := rfl
@[simp] theorem State.setPc_stack (s : State) (a : Half) : (s.setPc a).stack = s.stack := rfl
@[simp] theorem State.setPc_dt (s : State) (a : Half) : (s.setPc a).dt = s.dt := rfl
@[simp] theorem State.setPc_st (s : State) (a : Half) : (s.setPc a).st = s.st := rfl
@[simp] theorem State.setPc_fb (s : State) (a : Half) : (s.setPc a).fb = s.fb := rfl
@[simp] theorem State.setPc_keys (s : State) (a : Half) : (s.setPc a).keys = s.keys := rfl
@[simp] theorem State.setPc_mem (s : State) (a : Half) : (s.setPc a).mem = s.mem := rfl
@[simp] theorem State.setPc_ctl (s : State) (a : Half) : (s.setPc a).ctl = s.ctl := rfl
@[simp] theorem State.setPc_fault (s : State) (a : Half) : (s.setPc a).fault = s.fault := rfl
@[simp] theorem State.setPc_refused (s : State) (a : Half) : (s.setPc a).refused = s.refused := rfl
@[simp] theorem State.setPc_config (s : State) (a : Half) : (s.setPc a).config = s.config := rfl
@[simp] theorem State.setPc_params (s : State) (a : Half) : (s.setPc a).params = s.params := rfl
@[simp] theorem State.setPc_time (s : State) (a : Half) : (s.setPc a).time = s.time := rfl
@[simp] theorem State.setPc_nInstr (s : State) (a : Half) : (s.setPc a).nInstr = s.nInstr := rfl
@[simp] theorem State.setPc_nTick (s : State) (a : Half) : (s.setPc a).nTick = s.nTick := rfl
@[simp] theorem State.setPc_nFrame (s : State) (a : Half) : (s.setPc a).nFrame = s.nFrame := rfl
@[simp] theorem State.setPc_draws (s : State) (a : Half) : (s.setPc a).draws = s.draws := rfl
@[simp] theorem State.setPc_ties (s : State) (a : Half) : (s.setPc a).ties = s.ties := rfl
@[simp] theorem State.setPc_calls (s : State) (a : Half) : (s.setPc a).calls = s.calls := rfl
@[simp] theorem State.setPc_sent (s : State) (a : Half) : (s.setPc a).sent = s.sent := rfl
@[simp] theorem State.setPc_written (s : State) (a : Half) : (s.setPc a).written = s.written := rfl

/-! `State.advance` -/

@[simp] theorem State.advance_v (s : State) : (s.advance).v = s.v := rfl
@[simp] theorem State.advance_i (s : State) : (s.advance).i = s.i := rfl
@[simp] theorem State.advance_pc (s : State) : (s.advance).pc = s.pcNext := rfl
@[simp] theorem State.advance_sp (s : State) : (s.advance).sp = s.sp := rfl
@[simp] theorem State.advance_stack (s : State) : (s.advance).stack = s.stack := rfl
@[simp] theorem State.advance_dt (s : State) : (s.advance).dt = s.dt := rfl
@[simp] theorem State.advance_st (s : State) : (s.advance).st = s.st := rfl
@[simp] theorem State.advance_fb (s : State) : (s.advance).fb = s.fb := rfl
@[simp] theorem State.advance_keys (s : State) : (s.advance).keys = s.keys := rfl
@[simp] theorem State.advance_mem (s : State) : (s.advance).mem = s.mem := rfl
@[simp] theorem State.advance_ctl (s : State) : (s.advance).ctl = s.ctl := rfl
@[simp] theorem State.advance_fault (s : State) : (s.advance).fault = s.fault := rfl
@[simp] theorem State.advance_refused (s : State) : (s.advance).refused = s.refused := rfl
@[simp] theorem State.advance_config (s : State) : (s.advance).config = s.config := rfl
@[simp] theorem State.advance_params (s : State) : (s.advance).params = s.params := rfl
@[simp] theorem State.advance_time (s : State) : (s.advance).time = s.time := rfl
@[simp] theorem State.advance_nInstr (s : State) : (s.advance).nInstr = s.nInstr := rfl
@[simp] theorem State.advance_nTick (s : State) : (s.advance).nTick = s.nTick := rfl
@[simp] theorem State.advance_nFrame (s : State) : (s.advance).nFrame = s.nFrame := rfl
@[simp] theorem State.advance_draws (s : State) : (s.advance).draws = s.draws := rfl
@[simp] theorem State.advance_ties (s : State) : (s.advance).ties = s.ties := rfl
@[simp] theorem State.advance_calls (s : State) : (s.advance).calls = s.calls := rfl
@[simp] theorem State.advance_sent (s : State) : (s.advance).sent = s.sent := rfl
@[simp] theorem State.advance_written (s : State) : (s.advance).written = s.written := rfl

/-! `State.skipIf` -/

@[simp] theorem State.skipIf_v (s : State) (c : Bool) : (s.skipIf c).v = s.v := rfl
@[simp] theorem State.skipIf_i (s : State) (c : Bool) : (s.skipIf c).i = s.i := rfl
@[simp] theorem State.skipIf_pc (s : State) (c : Bool) : (s.skipIf c).pc = if c then s.pcSkip else s.pcNext := rfl
@[simp] theorem State.skipIf_sp (s : State) (c : Bool) : (s.skipIf c).sp = s.sp := rfl
@[simp] theorem State.skipIf_stack (s : State) (c : Bool) : (s.skipIf c).stack = s.stack := rfl
@[simp] theorem State.skipIf_dt (s : State) (c : Bool) : (s.skipIf c).dt = s.dt := rfl
@[simp] theorem State.skipIf_st (s : State) (c : Bool) : (s.skipIf c).st = s.st := rfl
@[simp] theorem State.skipIf_fb (s : State) (c : Bool) : (s.skipIf c).fb = s.fb := rfl
@[simp] theorem State.skipIf_keys (s : State) (c : Bool) : (s.skipIf c).keys = s.keys := rfl
@[simp] theorem State.skipIf_mem (s : State) (c : Bool) : (s.skipIf c).mem = s.mem := rfl
@[simp] theorem State.skipIf_ctl (s : State) (c : Bool) : (s.skipIf c).ctl = s.ctl := rfl
@[simp] theorem State.skipIf_fault (s : State) (c : Bool) : (s.skipIf c).fault = s.fault := rfl
@[simp] theorem State.skipIf_refused (s : State) (c : Bool) : (s.skipIf c).refused = s.refused := rfl
@[simp] theorem State.skipIf_config (s : State) (c : Bool) : (s.skipIf c).config = s.config := rfl
@[simp] theorem State.skipIf_params (s : State) (c : Bool) : (s.skipIf c).params = s.params := rfl
@[simp] theorem State.skipIf_time (s : State) (c : Bool) : (s.skipIf c).time = s.time := rfl
@[simp] theorem State.skipIf_nInstr (s : State) (c : Bool) : (s.skipIf c).nInstr = s.nInstr := rfl
@[simp] theorem State.skipIf_nTick (s : State) (c : Bool) : (s.skipIf c).nTick = s.nTick := rfl
@[simp] theorem State.skipIf_nFrame (s : State) (c : Bool) : (s.skipIf c).nFrame = s.nFrame := rfl
@[simp] theorem State.skipIf_draws (s : State) (c : Bool) : (s.skipIf c).draws = s.draws := rfl
@[simp] theorem State.skipIf_ties (s : State) (c : Bool) : (s.skipIf c).ties = s.ties := rfl
@[simp] theorem State.skipIf_calls (s : State) (c : Bool) : (s.skipIf c).calls = s.calls := rfl
@[simp] theorem State.skipIf_sent (s : State) (c : Bool) : (s.skipIf c).sent = s.sent := rfl
@[simp] theorem State.skipIf_written (s : State) (c : Bool) : (s.skipIf c).written = s.written := rfl

/-! `State.setI` -/

@[simp] theorem State.setI_v (s : State) (a : Half) : (s.setI a).v = s.v := rfl
@[simp] theorem State.setI_i (s : State) (a : Half) : (s.setI a).i = a := rfl
@[simp] theorem State.setI_pc (s : State) (a : Half) : (s.setI a).pc = s.pc := rfl
@[simp] theorem State.setI_sp (s : State) (a : Half) : (s.setI a).sp = s.sp := rfl
@[simp] theorem State.setI_stack (s : State) (a : Half) : (s.setI a).stack = s.stack := rfl
@[simp] theorem State.setI_dt (s : State) (a : Half) : (s.setI a).dt = s.dt := rfl
@[simp] theorem State.setI_st (s : State) (a : Half) : (s.setI a).st = s.st := rfl
@[simp] theorem State.setI_fb (s : State) (a : Half) : (s.setI a).fb = s.fb := rfl
@[simp] theorem State.setI_keys (s : State) (a : Half) : (s.setI a).keys = s.keys := rfl
@[simp] theorem State.setI_mem (s : State) (a : Half) : (s.setI a).mem = s.mem := rfl
@[simp] theorem State.setI_ctl (s : State) (a : Half) : (s.setI a).ctl = s.ctl := rfl
@[simp] theorem State.setI_fault (s : State) (a : Half) : (s.setI a).fault = s.fault := rfl
@[simp] theorem State.setI_refused (s : State) (a : Half) : (s.setI a).refused = s.refused := rfl
@[simp] theorem State.setI_config (s : State) (a : Half) : (s.setI a).config = s.config := rfl
@[simp] theorem State.setI_params (s : State) (a : Half) : (s.setI a).params = s.params := rfl
@[simp] theorem State.setI_time (s : State) (a : Half) : (s.setI a).time = s.time := rfl
@[simp] theorem State.setI_nInstr (s : State) (a : Half) : (s.setI a).nInstr = s.nInstr := rfl
@[simp] theorem State.setI_nTick (s : State) (a : Half) : (s.setI a).nTick = s.nTick := rfl
@[simp] theorem State.setI_nFrame (s : State) (a : Half) : (s.setI a).nFrame = s.nFrame := rfl
@[simp] theorem State.setI_draws (s : State) (a : Half) : (s.setI a).draws = s.draws := rfl
@[simp] theorem State.setI_ties (s : State) (a : Half) : (s.setI a).ties = s.ties := rfl
@[simp] theorem State.setI_calls (s : State) (a : Half) : (s.setI a).calls = s.calls := rfl
@[simp] theorem State.setI_sent (s : State) (a : Half) : (s.setI a).sent = s.sent := rfl
@[simp] theorem State.setI_written (s : State) (a : Half) : (s.setI a).written = s.written := rfl

/-! `State.raise` -/

@[simp] theorem State.raise_v (s : State) (c : FaultCause) : (s.raise c).v = s.v := rfl
@[simp] theorem State.raise_i (s : State) (c : FaultCause) : (s.raise c).i = s.i := rfl
@[simp] theorem State.raise_pc (s : State) (c : FaultCause) : (s.raise c).pc = s.pc := rfl
@[simp] theorem State.raise_sp (s : State) (c : FaultCause) : (s.raise c).sp = s.sp := rfl
@[simp] theorem State.raise_stack (s : State) (c : FaultCause) : (s.raise c).stack = s.stack := rfl
@[simp] theorem State.raise_dt (s : State) (c : FaultCause) : (s.raise c).dt = s.dt := rfl
@[simp] theorem State.raise_st (s : State) (c : FaultCause) : (s.raise c).st = s.st := rfl
@[simp] theorem State.raise_fb (s : State) (c : FaultCause) : (s.raise c).fb = s.fb := rfl
@[simp] theorem State.raise_keys (s : State) (c : FaultCause) : (s.raise c).keys = s.keys := rfl
@[simp] theorem State.raise_mem (s : State) (c : FaultCause) : (s.raise c).mem = s.mem := rfl
@[simp] theorem State.raise_ctl (s : State) (c : FaultCause) : (s.raise c).ctl = .halted := rfl
@[simp] theorem State.raise_fault (s : State) (c : FaultCause) : (s.raise c).fault = some ⟨c, s.pc⟩ := rfl
@[simp] theorem State.raise_refused (s : State) (c : FaultCause) : (s.raise c).refused = s.refused := rfl
@[simp] theorem State.raise_config (s : State) (c : FaultCause) : (s.raise c).config = s.config := rfl
@[simp] theorem State.raise_params (s : State) (c : FaultCause) : (s.raise c).params = s.params := rfl
@[simp] theorem State.raise_time (s : State) (c : FaultCause) : (s.raise c).time = s.time := rfl
@[simp] theorem State.raise_nInstr (s : State) (c : FaultCause) : (s.raise c).nInstr = s.nInstr := rfl
@[simp] theorem State.raise_nTick (s : State) (c : FaultCause) : (s.raise c).nTick = s.nTick := rfl
@[simp] theorem State.raise_nFrame (s : State) (c : FaultCause) : (s.raise c).nFrame = s.nFrame := rfl
@[simp] theorem State.raise_draws (s : State) (c : FaultCause) : (s.raise c).draws = s.draws := rfl
@[simp] theorem State.raise_ties (s : State) (c : FaultCause) : (s.raise c).ties = s.ties := rfl
@[simp] theorem State.raise_calls (s : State) (c : FaultCause) : (s.raise c).calls = s.calls := rfl
@[simp] theorem State.raise_sent (s : State) (c : FaultCause) : (s.raise c).sent = .faultReport ⟨c, s.pc⟩ :: s.sent := rfl
@[simp] theorem State.raise_written (s : State) (c : FaultCause) : (s.raise c).written = s.written := rfl

/-! `State.refuse` -/

@[simp] theorem State.refuse_v (s : State) (r : RefuseReason) : (s.refuse r).v = s.v := rfl
@[simp] theorem State.refuse_i (s : State) (r : RefuseReason) : (s.refuse r).i = s.i := rfl
@[simp] theorem State.refuse_pc (s : State) (r : RefuseReason) : (s.refuse r).pc = s.pc := rfl
@[simp] theorem State.refuse_sp (s : State) (r : RefuseReason) : (s.refuse r).sp = s.sp := rfl
@[simp] theorem State.refuse_stack (s : State) (r : RefuseReason) : (s.refuse r).stack = s.stack := rfl
@[simp] theorem State.refuse_dt (s : State) (r : RefuseReason) : (s.refuse r).dt = s.dt := rfl
@[simp] theorem State.refuse_st (s : State) (r : RefuseReason) : (s.refuse r).st = s.st := rfl
@[simp] theorem State.refuse_fb (s : State) (r : RefuseReason) : (s.refuse r).fb = s.fb := rfl
@[simp] theorem State.refuse_keys (s : State) (r : RefuseReason) : (s.refuse r).keys = s.keys := rfl
@[simp] theorem State.refuse_mem (s : State) (r : RefuseReason) : (s.refuse r).mem = s.mem := rfl
@[simp] theorem State.refuse_ctl (s : State) (r : RefuseReason) : (s.refuse r).ctl = s.ctl := rfl
@[simp] theorem State.refuse_fault (s : State) (r : RefuseReason) : (s.refuse r).fault = s.fault := rfl
@[simp] theorem State.refuse_refused (s : State) (r : RefuseReason) : (s.refuse r).refused = some r := rfl
@[simp] theorem State.refuse_config (s : State) (r : RefuseReason) : (s.refuse r).config = s.config := rfl
@[simp] theorem State.refuse_params (s : State) (r : RefuseReason) : (s.refuse r).params = s.params := rfl
@[simp] theorem State.refuse_time (s : State) (r : RefuseReason) : (s.refuse r).time = s.time := rfl
@[simp] theorem State.refuse_nInstr (s : State) (r : RefuseReason) : (s.refuse r).nInstr = s.nInstr := rfl
@[simp] theorem State.refuse_nTick (s : State) (r : RefuseReason) : (s.refuse r).nTick = s.nTick := rfl
@[simp] theorem State.refuse_nFrame (s : State) (r : RefuseReason) : (s.refuse r).nFrame = s.nFrame := rfl
@[simp] theorem State.refuse_draws (s : State) (r : RefuseReason) : (s.refuse r).draws = s.draws := rfl
@[simp] theorem State.refuse_ties (s : State) (r : RefuseReason) : (s.refuse r).ties = s.ties := rfl
@[simp] theorem State.refuse_calls (s : State) (r : RefuseReason) : (s.refuse r).calls = s.calls := rfl
@[simp] theorem State.refuse_sent (s : State) (r : RefuseReason) : (s.refuse r).sent = s.sent := rfl
@[simp] theorem State.refuse_written (s : State) (r : RefuseReason) : (s.refuse r).written = s.written := rfl

/-! `State.writeByte` -/

@[simp] theorem State.writeByte_v (s : State) (a : Nat) (b : Byte) : (s.writeByte a b).v = s.v := rfl
@[simp] theorem State.writeByte_i (s : State) (a : Nat) (b : Byte) : (s.writeByte a b).i = s.i := rfl
@[simp] theorem State.writeByte_pc (s : State) (a : Nat) (b : Byte) : (s.writeByte a b).pc = s.pc := rfl
@[simp] theorem State.writeByte_sp (s : State) (a : Nat) (b : Byte) : (s.writeByte a b).sp = s.sp := rfl
@[simp] theorem State.writeByte_stack (s : State) (a : Nat) (b : Byte) : (s.writeByte a b).stack = s.stack := rfl
@[simp] theorem State.writeByte_dt (s : State) (a : Nat) (b : Byte) : (s.writeByte a b).dt = s.dt := rfl
@[simp] theorem State.writeByte_st (s : State) (a : Nat) (b : Byte) : (s.writeByte a b).st = s.st := rfl
@[simp] theorem State.writeByte_fb (s : State) (a : Nat) (b : Byte) : (s.writeByte a b).fb = s.fb := rfl
@[simp] theorem State.writeByte_keys (s : State) (a : Nat) (b : Byte) : (s.writeByte a b).keys = s.keys := rfl
@[simp] theorem State.writeByte_mem (s : State) (a : Nat) (b : Byte) : (s.writeByte a b).mem = memWrite (resetByte s.params a) s.mem a b := rfl
@[simp] theorem State.writeByte_ctl (s : State) (a : Nat) (b : Byte) : (s.writeByte a b).ctl = s.ctl := rfl
@[simp] theorem State.writeByte_fault (s : State) (a : Nat) (b : Byte) : (s.writeByte a b).fault = s.fault := rfl
@[simp] theorem State.writeByte_refused (s : State) (a : Nat) (b : Byte) : (s.writeByte a b).refused = s.refused := rfl
@[simp] theorem State.writeByte_config (s : State) (a : Nat) (b : Byte) : (s.writeByte a b).config = s.config := rfl
@[simp] theorem State.writeByte_params (s : State) (a : Nat) (b : Byte) : (s.writeByte a b).params = s.params := rfl
@[simp] theorem State.writeByte_time (s : State) (a : Nat) (b : Byte) : (s.writeByte a b).time = s.time := rfl
@[simp] theorem State.writeByte_nInstr (s : State) (a : Nat) (b : Byte) : (s.writeByte a b).nInstr = s.nInstr := rfl
@[simp] theorem State.writeByte_nTick (s : State) (a : Nat) (b : Byte) : (s.writeByte a b).nTick = s.nTick := rfl
@[simp] theorem State.writeByte_nFrame (s : State) (a : Nat) (b : Byte) : (s.writeByte a b).nFrame = s.nFrame := rfl
@[simp] theorem State.writeByte_draws (s : State) (a : Nat) (b : Byte) : (s.writeByte a b).draws = s.draws := rfl
@[simp] theorem State.writeByte_ties (s : State) (a : Nat) (b : Byte) : (s.writeByte a b).ties = s.ties := rfl
@[simp] theorem State.writeByte_calls (s : State) (a : Nat) (b : Byte) : (s.writeByte a b).calls = s.calls := rfl
@[simp] theorem State.writeByte_sent (s : State) (a : Nat) (b : Byte) : (s.writeByte a b).sent = s.sent := rfl
@[simp] theorem State.writeByte_written (s : State) (a : Nat) (b : Byte) : (s.writeByte a b).written = s.written := rfl

/-! `State.tick` -/

@[simp] theorem State.tick_v (s : State) : (s.tick).v = s.v := rfl
@[simp] theorem State.tick_i (s : State) : (s.tick).i = s.i := rfl
@[simp] theorem State.tick_pc (s : State) : (s.tick).pc = s.pc := rfl
@[simp] theorem State.tick_sp (s : State) : (s.tick).sp = s.sp := rfl
@[simp] theorem State.tick_stack (s : State) : (s.tick).stack = s.stack := rfl
@[simp] theorem State.tick_dt (s : State) : (s.tick).dt = if s.dt = 0x00#8 then s.dt else s.dt - 1#8 := rfl
@[simp] theorem State.tick_st (s : State) : (s.tick).st = if s.st = 0x00#8 then s.st else s.st - 1#8 := rfl
@[simp] theorem State.tick_fb (s : State) : (s.tick).fb = s.fb := rfl
@[simp] theorem State.tick_keys (s : State) : (s.tick).keys = s.keys := rfl
@[simp] theorem State.tick_mem (s : State) : (s.tick).mem = s.mem := rfl
@[simp] theorem State.tick_ctl (s : State) : (s.tick).ctl = s.ctl := rfl
@[simp] theorem State.tick_fault (s : State) : (s.tick).fault = s.fault := rfl
@[simp] theorem State.tick_refused (s : State) : (s.tick).refused = s.refused := rfl
@[simp] theorem State.tick_config (s : State) : (s.tick).config = s.config := rfl
@[simp] theorem State.tick_params (s : State) : (s.tick).params = s.params := rfl
@[simp] theorem State.tick_time (s : State) : (s.tick).time = s.time := rfl
@[simp] theorem State.tick_nInstr (s : State) : (s.tick).nInstr = s.nInstr := rfl
@[simp] theorem State.tick_nTick (s : State) : (s.tick).nTick = s.nTick := rfl
@[simp] theorem State.tick_nFrame (s : State) : (s.tick).nFrame = s.nFrame := rfl
@[simp] theorem State.tick_draws (s : State) : (s.tick).draws = s.draws := rfl
@[simp] theorem State.tick_ties (s : State) : (s.tick).ties = s.ties := rfl
@[simp] theorem State.tick_calls (s : State) : (s.tick).calls = s.calls := rfl
@[simp] theorem State.tick_sent (s : State) : (s.tick).sent = s.sent := rfl
@[simp] theorem State.tick_written (s : State) : (s.tick).written = s.written := rfl

/-! `State.setDelay` -/

@[simp] theorem State.setDelay_v (s : State) (b : Byte) : (s.setDelay b).v = s.v := rfl
@[simp] theorem State.setDelay_i (s : State) (b : Byte) : (s.setDelay b).i = s.i := rfl
@[simp] theorem State.setDelay_pc (s : State) (b : Byte) : (s.setDelay b).pc = s.pc := rfl
@[simp] theorem State.setDelay_sp (s : State) (b : Byte) : (s.setDelay b).sp = s.sp := rfl
@[simp] theorem State.setDelay_stack (s : State) (b : Byte) : (s.setDelay b).stack = s.stack := rfl
@[simp] theorem State.setDelay_dt (s : State) (b : Byte) : (s.setDelay b).dt = b := rfl
@[simp] theorem State.setDelay_st (s : State) (b : Byte) : (s.setDelay b).st = s.st := rfl
@[simp] theorem State.setDelay_fb (s : State) (b : Byte) : (s.setDelay b).fb = s.fb := rfl
@[simp] theorem State.setDelay_keys (s : State) (b : Byte) : (s.setDelay b).keys = s.keys := rfl
@[simp] theorem State.setDelay_mem (s : State) (b : Byte) : (s.setDelay b).mem = s.mem := rfl
@[simp] theorem State.setDelay_ctl (s : State) (b : Byte) : (s.setDelay b).ctl = s.ctl := rfl
@[simp] theorem State.setDelay_fault (s : State) (b : Byte) : (s.setDelay b).fault = s.fault := rfl
@[simp] theorem State.setDelay_refused (s : State) (b : Byte) : (s.setDelay b).refused = s.refused := rfl
@[simp] theorem State.setDelay_config (s : State) (b : Byte) : (s.setDelay b).config = s.config := rfl
@[simp] theorem State.setDelay_params (s : State) (b : Byte) : (s.setDelay b).params = s.params := rfl
@[simp] theorem State.setDelay_time (s : State) (b : Byte) : (s.setDelay b).time = s.time := rfl
@[simp] theorem State.setDelay_nInstr (s : State) (b : Byte) : (s.setDelay b).nInstr = s.nInstr := rfl
@[simp] theorem State.setDelay_nTick (s : State) (b : Byte) : (s.setDelay b).nTick = s.nTick := rfl
@[simp] theorem State.setDelay_nFrame (s : State) (b : Byte) : (s.setDelay b).nFrame = s.nFrame := rfl
@[simp] theorem State.setDelay_draws (s : State) (b : Byte) : (s.setDelay b).draws = s.draws := rfl
@[simp] theorem State.setDelay_ties (s : State) (b : Byte) : (s.setDelay b).ties = s.ties := rfl
@[simp] theorem State.setDelay_calls (s : State) (b : Byte) : (s.setDelay b).calls = s.calls := rfl
@[simp] theorem State.setDelay_sent (s : State) (b : Byte) : (s.setDelay b).sent = s.sent := rfl
@[simp] theorem State.setDelay_written (s : State) (b : Byte) : (s.setDelay b).written = s.written := rfl

/-! `State.setSound` -/

@[simp] theorem State.setSound_v (s : State) (b : Byte) : (s.setSound b).v = s.v := rfl
@[simp] theorem State.setSound_i (s : State) (b : Byte) : (s.setSound b).i = s.i := rfl
@[simp] theorem State.setSound_pc (s : State) (b : Byte) : (s.setSound b).pc = s.pc := rfl
@[simp] theorem State.setSound_sp (s : State) (b : Byte) : (s.setSound b).sp = s.sp := rfl
@[simp] theorem State.setSound_stack (s : State) (b : Byte) : (s.setSound b).stack = s.stack := rfl
@[simp] theorem State.setSound_dt (s : State) (b : Byte) : (s.setSound b).dt = s.dt := rfl
@[simp] theorem State.setSound_st (s : State) (b : Byte) : (s.setSound b).st = b := rfl
@[simp] theorem State.setSound_fb (s : State) (b : Byte) : (s.setSound b).fb = s.fb := rfl
@[simp] theorem State.setSound_keys (s : State) (b : Byte) : (s.setSound b).keys = s.keys := rfl
@[simp] theorem State.setSound_mem (s : State) (b : Byte) : (s.setSound b).mem = s.mem := rfl
@[simp] theorem State.setSound_ctl (s : State) (b : Byte) : (s.setSound b).ctl = s.ctl := rfl
@[simp] theorem State.setSound_fault (s : State) (b : Byte) : (s.setSound b).fault = s.fault := rfl
@[simp] theorem State.setSound_refused (s : State) (b : Byte) : (s.setSound b).refused = s.refused := rfl
@[simp] theorem State.setSound_config (s : State) (b : Byte) : (s.setSound b).config = s.config := rfl
@[simp] theorem State.setSound_params (s : State) (b : Byte) : (s.setSound b).params = s.params := rfl
@[simp] theorem State.setSound_time (s : State) (b : Byte) : (s.setSound b).time = s.time := rfl
@[simp] theorem State.setSound_nInstr (s : State) (b : Byte) : (s.setSound b).nInstr = s.nInstr := rfl
@[simp] theorem State.setSound_nTick (s : State) (b : Byte) : (s.setSound b).nTick = s.nTick := rfl
@[simp] theorem State.setSound_nFrame (s : State) (b : Byte) : (s.setSound b).nFrame = s.nFrame := rfl
@[simp] theorem State.setSound_draws (s : State) (b : Byte) : (s.setSound b).draws = s.draws := rfl
@[simp] theorem State.setSound_ties (s : State) (b : Byte) : (s.setSound b).ties = s.ties := rfl
@[simp] theorem State.setSound_calls (s : State) (b : Byte) : (s.setSound b).calls = s.calls := rfl
@[simp] theorem State.setSound_sent (s : State) (b : Byte) : (s.setSound b).sent = s.sent := rfl
@[simp] theorem State.setSound_written (s : State) (b : Byte) : (s.setSound b).written = s.written := rfl

/-! `State.setKey` -/

@[simp] theorem State.setKey_v (s : State) (k : RegIdx) (p : Bool) : (s.setKey k p).v = s.v := rfl
@[simp] theorem State.setKey_i (s : State) (k : RegIdx) (p : Bool) : (s.setKey k p).i = s.i := rfl
@[simp] theorem State.setKey_pc (s : State) (k : RegIdx) (p : Bool) : (s.setKey k p).pc = s.pc := rfl
@[simp] theorem State.setKey_sp (s : State) (k : RegIdx) (p : Bool) : (s.setKey k p).sp = s.sp := rfl
@[simp] theorem State.setKey_stack (s : State) (k : RegIdx) (p : Bool) : (s.setKey k p).stack = s.stack := rfl
@[simp] theorem State.setKey_dt (s : State) (k : RegIdx) (p : Bool) : (s.setKey k p).dt = s.dt := rfl
@[simp] theorem State.setKey_st (s : State) (k : RegIdx) (p : Bool) : (s.setKey k p).st = s.st := rfl
@[simp] theorem State.setKey_fb (s : State) (k : RegIdx) (p : Bool) : (s.setKey k p).fb = s.fb := rfl
@[simp] theorem State.setKey_keys (s : State) (k : RegIdx) (p : Bool) : (s.setKey k p).keys = s.keys.set k.toNat p k.isLt := rfl
@[simp] theorem State.setKey_mem (s : State) (k : RegIdx) (p : Bool) : (s.setKey k p).mem = s.mem := rfl
@[simp] theorem State.setKey_ctl (s : State) (k : RegIdx) (p : Bool) : (s.setKey k p).ctl = s.ctl := rfl
@[simp] theorem State.setKey_fault (s : State) (k : RegIdx) (p : Bool) : (s.setKey k p).fault = s.fault := rfl
@[simp] theorem State.setKey_refused (s : State) (k : RegIdx) (p : Bool) : (s.setKey k p).refused = s.refused := rfl
@[simp] theorem State.setKey_config (s : State) (k : RegIdx) (p : Bool) : (s.setKey k p).config = s.config := rfl
@[simp] theorem State.setKey_params (s : State) (k : RegIdx) (p : Bool) : (s.setKey k p).params = s.params := rfl
@[simp] theorem State.setKey_time (s : State) (k : RegIdx) (p : Bool) : (s.setKey k p).time = s.time := rfl
@[simp] theorem State.setKey_nInstr (s : State) (k : RegIdx) (p : Bool) : (s.setKey k p).nInstr = s.nInstr := rfl
@[simp] theorem State.setKey_nTick (s : State) (k : RegIdx) (p : Bool) : (s.setKey k p).nTick = s.nTick := rfl
@[simp] theorem State.setKey_nFrame (s : State) (k : RegIdx) (p : Bool) : (s.setKey k p).nFrame = s.nFrame := rfl
@[simp] theorem State.setKey_draws (s : State) (k : RegIdx) (p : Bool) : (s.setKey k p).draws = s.draws := rfl
@[simp] theorem State.setKey_ties (s : State) (k : RegIdx) (p : Bool) : (s.setKey k p).ties = s.ties := rfl
@[simp] theorem State.setKey_calls (s : State) (k : RegIdx) (p : Bool) : (s.setKey k p).calls = s.calls := rfl
@[simp] theorem State.setKey_sent (s : State) (k : RegIdx) (p : Bool) : (s.setKey k p).sent = s.sent := rfl
@[simp] theorem State.setKey_written (s : State) (k : RegIdx) (p : Bool) : (s.setKey k p).written = s.written := rfl

/-! `State.setFb` -/

@[simp] theorem State.setFb_v (s : State) (f : Framebuffer) : (s.setFb f).v = s.v := rfl
@[simp] theorem State.setFb_i (s : State) (f : Framebuffer) : (s.setFb f).i = s.i := rfl
@[simp] theorem State.setFb_pc (s : State) (f : Framebuffer) : (s.setFb f).pc = s.pc := rfl
@[simp] theorem State.setFb_sp (s : State) (f : Framebuffer) : (s.setFb f).sp = s.sp := rfl
@[simp] theorem State.setFb_stack (s : State) (f : Framebuffer) : (s.setFb f).stack = s.stack := rfl
@[simp] theorem State.setFb_dt (s : State) (f : Framebuffer) : (s.setFb f).dt = s.dt := rfl
@[simp] theorem State.setFb_st (s : State) (f : Framebuffer) : (s.setFb f).st = s.st := rfl
@[simp] theorem State.setFb_fb (s : State) (f : Framebuffer) : (s.setFb f).fb = f := rfl
@[simp] theorem State.setFb_keys (s : State) (f : Framebuffer) : (s.setFb f).keys = s.keys := rfl
@[simp] theorem State.setFb_mem (s : State) (f : Framebuffer) : (s.setFb f).mem = s.mem := rfl
@[simp] theorem State.setFb_ctl (s : State) (f : Framebuffer) : (s.setFb f).ctl = s.ctl := rfl
@[simp] theorem State.setFb_fault (s : State) (f : Framebuffer) : (s.setFb f).fault = s.fault := rfl
@[simp] theorem State.setFb_refused (s : State) (f : Framebuffer) : (s.setFb f).refused = s.refused := rfl
@[simp] theorem State.setFb_config (s : State) (f : Framebuffer) : (s.setFb f).config = s.config := rfl
@[simp] theorem State.setFb_params (s : State) (f : Framebuffer) : (s.setFb f).params = s.params := rfl
@[simp] theorem State.setFb_time (s : State) (f : Framebuffer) : (s.setFb f).time = s.time := rfl
@[simp] theorem State.setFb_nInstr (s : State) (f : Framebuffer) : (s.setFb f).nInstr = s.nInstr := rfl
@[simp] theorem State.setFb_nTick (s : State) (f : Framebuffer) : (s.setFb f).nTick = s.nTick := rfl
@[simp] theorem State.setFb_nFrame (s : State) (f : Framebuffer) : (s.setFb f).nFrame = s.nFrame := rfl
@[simp] theorem State.setFb_draws (s : State) (f : Framebuffer) : (s.setFb f).draws = s.draws := rfl
@[simp] theorem State.setFb_ties (s : State) (f : Framebuffer) : (s.setFb f).ties = s.ties := rfl
@[simp] theorem State.setFb_calls (s : State) (f : Framebuffer) : (s.setFb f).calls = s.calls := rfl
@[simp] theorem State.setFb_sent (s : State) (f : Framebuffer) : (s.setFb f).sent = s.sent := rfl
@[simp] theorem State.setFb_written (s : State) (f : Framebuffer) : (s.setFb f).written = s.written := rfl

/-! `State.awaitKey` -/

@[simp] theorem State.awaitKey_v (s : State) (x : RegIdx) : (s.awaitKey x).v = s.v := rfl
@[simp] theorem State.awaitKey_i (s : State) (x : RegIdx) : (s.awaitKey x).i = s.i := rfl
@[simp] theorem State.awaitKey_pc (s : State) (x : RegIdx) : (s.awaitKey x).pc = s.pc := rfl
@[simp] theorem State.awaitKey_sp (s : State) (x : RegIdx) : (s.awaitKey x).sp = s.sp := rfl
@[simp] theorem State.awaitKey_stack (s : State) (x : RegIdx) : (s.awaitKey x).stack = s.stack := rfl
@[simp] theorem State.awaitKey_dt (s : State) (x : RegIdx) : (s.awaitKey x).dt = s.dt := rfl
@[simp] theorem State.awaitKey_st (s : State) (x : RegIdx) : (s.awaitKey x).st = s.st := rfl
@[simp] theorem State.awaitKey_fb (s : State) (x : RegIdx) : (s.awaitKey x).fb = s.fb := rfl
@[simp] theorem State.awaitKey_keys (s : State) (x : RegIdx) : (s.awaitKey x).keys = s.keys := rfl
@[simp] theorem State.awaitKey_mem (s : State) (x : RegIdx) : (s.awaitKey x).mem = s.mem := rfl
@[simp] theorem State.awaitKey_ctl (s : State) (x : RegIdx) : (s.awaitKey x).ctl = .waitingForKey x := rfl
@[simp] theorem State.awaitKey_fault (s : State) (x : RegIdx) : (s.awaitKey x).fault = s.fault := rfl
@[simp] theorem State.awaitKey_refused (s : State) (x : RegIdx) : (s.awaitKey x).refused = s.refused := rfl
@[simp] theorem State.awaitKey_config (s : State) (x : RegIdx) : (s.awaitKey x).config = s.config := rfl
@[simp] theorem State.awaitKey_params (s : State) (x : RegIdx) : (s.awaitKey x).params = s.params := rfl
@[simp] theorem State.awaitKey_time (s : State) (x : RegIdx) : (s.awaitKey x).time = s.time := rfl
@[simp] theorem State.awaitKey_nInstr (s : State) (x : RegIdx) : (s.awaitKey x).nInstr = s.nInstr := rfl
@[simp] theorem State.awaitKey_nTick (s : State) (x : RegIdx) : (s.awaitKey x).nTick = s.nTick := rfl
@[simp] theorem State.awaitKey_nFrame (s : State) (x : RegIdx) : (s.awaitKey x).nFrame = s.nFrame := rfl
@[simp] theorem State.awaitKey_draws (s : State) (x : RegIdx) : (s.awaitKey x).draws = s.draws := rfl
@[simp] theorem State.awaitKey_ties (s : State) (x : RegIdx) : (s.awaitKey x).ties = s.ties := rfl
@[simp] theorem State.awaitKey_calls (s : State) (x : RegIdx) : (s.awaitKey x).calls = s.calls := rfl
@[simp] theorem State.awaitKey_sent (s : State) (x : RegIdx) : (s.awaitKey x).sent = s.sent := rfl
@[simp] theorem State.awaitKey_written (s : State) (x : RegIdx) : (s.awaitKey x).written = s.written := rfl

/-! `State.draw` -/

@[simp] theorem State.draw_v (s : State) : (s.draw.2).v = s.v := rfl
@[simp] theorem State.draw_i (s : State) : (s.draw.2).i = s.i := rfl
@[simp] theorem State.draw_pc (s : State) : (s.draw.2).pc = s.pc := rfl
@[simp] theorem State.draw_sp (s : State) : (s.draw.2).sp = s.sp := rfl
@[simp] theorem State.draw_stack (s : State) : (s.draw.2).stack = s.stack := rfl
@[simp] theorem State.draw_dt (s : State) : (s.draw.2).dt = s.dt := rfl
@[simp] theorem State.draw_st (s : State) : (s.draw.2).st = s.st := rfl
@[simp] theorem State.draw_fb (s : State) : (s.draw.2).fb = s.fb := rfl
@[simp] theorem State.draw_keys (s : State) : (s.draw.2).keys = s.keys := rfl
@[simp] theorem State.draw_mem (s : State) : (s.draw.2).mem = s.mem := rfl
@[simp] theorem State.draw_ctl (s : State) : (s.draw.2).ctl = s.ctl := rfl
@[simp] theorem State.draw_fault (s : State) : (s.draw.2).fault = s.fault := rfl
@[simp] theorem State.draw_refused (s : State) : (s.draw.2).refused = s.refused := rfl
@[simp] theorem State.draw_config (s : State) : (s.draw.2).config = s.config := rfl
@[simp] theorem State.draw_params (s : State) : (s.draw.2).params = s.params := rfl
@[simp] theorem State.draw_time (s : State) : (s.draw.2).time = s.time := rfl
@[simp] theorem State.draw_nInstr (s : State) : (s.draw.2).nInstr = s.nInstr := rfl
@[simp] theorem State.draw_nTick (s : State) : (s.draw.2).nTick = s.nTick := rfl
@[simp] theorem State.draw_nFrame (s : State) : (s.draw.2).nFrame = s.nFrame := rfl
@[simp] theorem State.draw_draws (s : State) : (s.draw.2).draws = s.draws + 1 := rfl
@[simp] theorem State.draw_ties (s : State) : (s.draw.2).ties = s.ties := rfl
@[simp] theorem State.draw_calls (s : State) : (s.draw.2).calls = s.calls := rfl
@[simp] theorem State.draw_sent (s : State) : (s.draw.2).sent = s.sent := rfl
@[simp] theorem State.draw_written (s : State) : (s.draw.2).written = s.written := rfl

/-! `State.elapse` -/

@[simp] theorem State.elapse_v (s : State) (num den : Nat) : (s.elapse num den).v = s.v := rfl
@[simp] theorem State.elapse_i (s : State) (num den : Nat) : (s.elapse num den).i = s.i := rfl
@[simp] theorem State.elapse_pc (s : State) (num den : Nat) : (s.elapse num den).pc = s.pc := rfl
@[simp] theorem State.elapse_sp (s : State) (num den : Nat) : (s.elapse num den).sp = s.sp := rfl
@[simp] theorem State.elapse_stack (s : State) (num den : Nat) : (s.elapse num den).stack = s.stack := rfl
@[simp] theorem State.elapse_dt (s : State) (num den : Nat) : (s.elapse num den).dt = s.dt := rfl
@[simp] theorem State.elapse_st (s : State) (num den : Nat) : (s.elapse num den).st = s.st := rfl
@[simp] theorem State.elapse_fb (s : State) (num den : Nat) : (s.elapse num den).fb = s.fb := rfl
@[simp] theorem State.elapse_keys (s : State) (num den : Nat) : (s.elapse num den).keys = s.keys := rfl
@[simp] theorem State.elapse_mem (s : State) (num den : Nat) : (s.elapse num den).mem = s.mem := rfl
@[simp] theorem State.elapse_ctl (s : State) (num den : Nat) : (s.elapse num den).ctl = s.ctl := rfl
@[simp] theorem State.elapse_fault (s : State) (num den : Nat) : (s.elapse num den).fault = s.fault := rfl
@[simp] theorem State.elapse_refused (s : State) (num den : Nat) : (s.elapse num den).refused = s.refused := rfl
@[simp] theorem State.elapse_config (s : State) (num den : Nat) : (s.elapse num den).config = s.config := rfl
@[simp] theorem State.elapse_params (s : State) (num den : Nat) : (s.elapse num den).params = s.params := rfl
@[simp] theorem State.elapse_time (s : State) (num den : Nat) : (s.elapse num den).time = s.time + mkRat num den := rfl
@[simp] theorem State.elapse_nInstr (s : State) (num den : Nat) : (s.elapse num den).nInstr = s.nInstr := rfl
@[simp] theorem State.elapse_nTick (s : State) (num den : Nat) : (s.elapse num den).nTick = s.nTick := rfl
@[simp] theorem State.elapse_nFrame (s : State) (num den : Nat) : (s.elapse num den).nFrame = s.nFrame := rfl
@[simp] theorem State.elapse_draws (s : State) (num den : Nat) : (s.elapse num den).draws = s.draws := rfl
@[simp] theorem State.elapse_ties (s : State) (num den : Nat) : (s.elapse num den).ties = s.ties := rfl
@[simp] theorem State.elapse_calls (s : State) (num den : Nat) : (s.elapse num den).calls = s.calls := rfl
@[simp] theorem State.elapse_sent (s : State) (num den : Nat) : (s.elapse num den).sent = s.sent := rfl
@[simp] theorem State.elapse_written (s : State) (num den : Nat) : (s.elapse num den).written = s.written := rfl

/-! The processing of a slot changes one counter. -/

@[simp] theorem State.count_instr_v (s : State) : (s.count .instr).v = s.v := rfl
@[simp] theorem State.count_instr_i (s : State) : (s.count .instr).i = s.i := rfl
@[simp] theorem State.count_instr_pc (s : State) : (s.count .instr).pc = s.pc := rfl
@[simp] theorem State.count_instr_sp (s : State) : (s.count .instr).sp = s.sp := rfl
@[simp] theorem State.count_instr_stack (s : State) : (s.count .instr).stack = s.stack := rfl
@[simp] theorem State.count_instr_dt (s : State) : (s.count .instr).dt = s.dt := rfl
@[simp] theorem State.count_instr_st (s : State) : (s.count .instr).st = s.st := rfl
@[simp] theorem State.count_instr_fb (s : State) : (s.count .instr).fb = s.fb := rfl
@[simp] theorem State.count_instr_keys (s : State) : (s.count .instr).keys = s.keys := rfl
@[simp] theorem State.count_instr_mem (s : State) : (s.count .instr).mem = s.mem := rfl
@[simp] theorem State.count_instr_ctl (s : State) : (s.count .instr).ctl = s.ctl := rfl
@[simp] theorem State.count_instr_fault (s : State) : (s.count .instr).fault = s.fault := rfl
@[simp] theorem State.count_instr_refused (s : State) : (s.count .instr).refused = s.refused := rfl
@[simp] theorem State.count_instr_config (s : State) : (s.count .instr).config = s.config := rfl
@[simp] theorem State.count_instr_params (s : State) : (s.count .instr).params = s.params := rfl
@[simp] theorem State.count_instr_time (s : State) : (s.count .instr).time = s.time := rfl
@[simp] theorem State.count_instr_nInstr (s : State) : (s.count .instr).nInstr = s.nInstr + 1 := rfl
@[simp] theorem State.count_instr_nTick (s : State) : (s.count .instr).nTick = s.nTick := rfl
@[simp] theorem State.count_instr_nFrame (s : State) : (s.count .instr).nFrame = s.nFrame := rfl
@[simp] theorem State.count_instr_draws (s : State) : (s.count .instr).draws = s.draws := rfl
@[simp] theorem State.count_instr_ties (s : State) : (s.count .instr).ties = s.ties := rfl
@[simp] theorem State.count_instr_calls (s : State) : (s.count .instr).calls = s.calls := rfl
@[simp] theorem State.count_instr_sent (s : State) : (s.count .instr).sent = s.sent := rfl
@[simp] theorem State.count_instr_written (s : State) : (s.count .instr).written = s.written := rfl
@[simp] theorem State.count_tick_v (s : State) : (s.count .tick).v = s.v := rfl
@[simp] theorem State.count_tick_i (s : State) : (s.count .tick).i = s.i := rfl
@[simp] theorem State.count_tick_pc (s : State) : (s.count .tick).pc = s.pc := rfl
@[simp] theorem State.count_tick_sp (s : State) : (s.count .tick).sp = s.sp := rfl
@[simp] theorem State.count_tick_stack (s : State) : (s.count .tick).stack = s.stack := rfl
@[simp] theorem State.count_tick_dt (s : State) : (s.count .tick).dt = s.dt := rfl
@[simp] theorem State.count_tick_st (s : State) : (s.count .tick).st = s.st := rfl
@[simp] theorem State.count_tick_fb (s : State) : (s.count .tick).fb = s.fb := rfl
@[simp] theorem State.count_tick_keys (s : State) : (s.count .tick).keys = s.keys := rfl
@[simp] theorem State.count_tick_mem (s : State) : (s.count .tick).mem = s.mem := rfl
@[simp] theorem State.count_tick_ctl (s : State) : (s.count .tick).ctl = s.ctl := rfl
@[simp] theorem State.count_tick_fault (s : State) : (s.count .tick).fault = s.fault := rfl
@[simp] theorem State.count_tick_refused (s : State) : (s.count .tick).refused = s.refused := rfl
@[simp] theorem State.count_tick_config (s : State) : (s.count .tick).config = s.config := rfl
@[simp] theorem State.count_tick_params (s : State) : (s.count .tick).params = s.params := rfl
@[simp] theorem State.count_tick_time (s : State) : (s.count .tick).time = s.time := rfl
@[simp] theorem State.count_tick_nInstr (s : State) : (s.count .tick).nInstr = s.nInstr := rfl
@[simp] theorem State.count_tick_nTick (s : State) : (s.count .tick).nTick = s.nTick + 1 := rfl
@[simp] theorem State.count_tick_nFrame (s : State) : (s.count .tick).nFrame = s.nFrame := rfl
@[simp] theorem State.count_tick_draws (s : State) : (s.count .tick).draws = s.draws := rfl
@[simp] theorem State.count_tick_ties (s : State) : (s.count .tick).ties = s.ties := rfl
@[simp] theorem State.count_tick_calls (s : State) : (s.count .tick).calls = s.calls := rfl
@[simp] theorem State.count_tick_sent (s : State) : (s.count .tick).sent = s.sent := rfl
@[simp] theorem State.count_tick_written (s : State) : (s.count .tick).written = s.written := rfl
@[simp] theorem State.count_frame_v (s : State) : (s.count .frame).v = s.v := rfl
@[simp] theorem State.count_frame_i (s : State) : (s.count .frame).i = s.i := rfl
@[simp] theorem State.count_frame_pc (s : State) : (s.count .frame).pc = s.pc := rfl
@[simp] theorem State.count_frame_sp (s : State) : (s.count .frame).sp = s.sp := rfl
@[simp] theorem State.count_frame_stack (s : State) : (s.count .frame).stack = s.stack := rfl
@[simp] theorem State.count_frame_dt (s : State) : (s.count .frame).dt = s.dt := rfl
@[simp] theorem State.count_frame_st (s : State) : (s.count .frame).st = s.st := rfl
@[simp] theorem State.count_frame_fb (s : State) : (s.count .frame).fb = s.fb := rfl
@[simp] theorem State.count_frame_keys (s : State) : (s.count .frame).keys = s.keys := rfl
@[simp] theorem State.count_frame_mem (s : State) : (s.count .frame).mem = s.mem := rfl
@[simp] theorem State.count_frame_ctl (s : State) : (s.count .frame).ctl = s.ctl := rfl
@[simp] theorem State.count_frame_fault (s : State) : (s.count .frame).fault = s.fault := rfl
@[simp] theorem State.count_frame_refused (s : State) : (s.count .frame).refused = s.refused := rfl
@[simp] theorem State.count_frame_config (s : State) : (s.count .frame).config = s.config := rfl
@[simp] theorem State.count_frame_params (s : State) : (s.count .frame).params = s.params := rfl
@[simp] theorem State.count_frame_time (s : State) : (s.count .frame).time = s.time := rfl
@[simp] theorem State.count_frame_nInstr (s : State) : (s.count .frame).nInstr = s.nInstr := rfl
@[simp] theorem State.count_frame_nTick (s : State) : (s.count .frame).nTick = s.nTick := rfl
@[simp] theorem State.count_frame_nFrame (s : State) : (s.count .frame).nFrame = s.nFrame + 1 := rfl
@[simp] theorem State.count_frame_draws (s : State) : (s.count .frame).draws = s.draws := rfl
@[simp] theorem State.count_frame_ties (s : State) : (s.count .frame).ties = s.ties := rfl
@[simp] theorem State.count_frame_calls (s : State) : (s.count .frame).calls = s.calls := rfl
@[simp] theorem State.count_frame_sent (s : State) : (s.count .frame).sent = s.sent := rfl
@[simp] theorem State.count_frame_written (s : State) : (s.count .frame).written = s.written := rfl

/-! `State.send` -/
@[simp] theorem State.send_v (s : State) (g : List Signal) : (s.send g).v = s.v := rfl
@[simp] theorem State.send_i (s : State) (g : List Signal) : (s.send g).i = s.i := rfl
@[simp] theorem State.send_pc (s : State) (g : List Signal) : (s.send g).pc = s.pc := rfl
@[simp] theorem State.send_sp (s : State) (g : List Signal) : (s.send g).sp = s.sp := rfl
@[simp] theorem State.send_stack (s : State) (g : List Signal) : (s.send g).stack = s.stack := rfl
@[simp] theorem State.send_dt (s : State) (g : List Signal) : (s.send g).dt = s.dt := rfl
@[simp] theorem State.send_st (s : State) (g : List Signal) : (s.send g).st = s.st := rfl
@[simp] theorem State.send_fb (s : State) (g : List Signal) : (s.send g).fb = s.fb := rfl
@[simp] theorem State.send_keys (s : State) (g : List Signal) : (s.send g).keys = s.keys := rfl
@[simp] theorem State.send_mem (s : State) (g : List Signal) : (s.send g).mem = s.mem := rfl
@[simp] theorem State.send_ctl (s : State) (g : List Signal) : (s.send g).ctl = s.ctl := rfl
@[simp] theorem State.send_fault (s : State) (g : List Signal) : (s.send g).fault = s.fault := rfl
@[simp] theorem State.send_refused (s : State) (g : List Signal) : (s.send g).refused = s.refused := rfl
@[simp] theorem State.send_config (s : State) (g : List Signal) : (s.send g).config = s.config := rfl
@[simp] theorem State.send_params (s : State) (g : List Signal) : (s.send g).params = s.params := rfl
@[simp] theorem State.send_time (s : State) (g : List Signal) : (s.send g).time = s.time := rfl
@[simp] theorem State.send_nInstr (s : State) (g : List Signal) : (s.send g).nInstr = s.nInstr := rfl
@[simp] theorem State.send_nTick (s : State) (g : List Signal) : (s.send g).nTick = s.nTick := rfl
@[simp] theorem State.send_nFrame (s : State) (g : List Signal) : (s.send g).nFrame = s.nFrame := rfl
@[simp] theorem State.send_draws (s : State) (g : List Signal) : (s.send g).draws = s.draws := rfl
@[simp] theorem State.send_ties (s : State) (g : List Signal) : (s.send g).ties = s.ties := rfl
@[simp] theorem State.send_calls (s : State) (g : List Signal) : (s.send g).calls = s.calls := rfl
@[simp] theorem State.send_sent (s : State) (g : List Signal) : (s.send g).sent = g ++ s.sent := rfl
@[simp] theorem State.send_written (s : State) (g : List Signal) : (s.send g).written = s.written := rfl

@[simp] theorem State.draw_fst (s : State) : s.draw.1 = Config.draw s.draws := rfl

end Sys2Proof.Machine
end

