-- ==== Sys2Proof/Laws/Ops.lean ====
section
/-! SUPPORT. What each shared operation does, said once: registers, the program counter, the stack, memory and its
canonical form, the address checks. A proof cites these and does not unfold the operations. -/

namespace Sys2Proof.Machine

/-! ## Registers -/

/-- `V[q]` after a write of `V[r]` (R20). -/
theorem State.reg_setReg (s : State) (r q : RegIdx) (b : Byte) :
    (s.setReg r b).reg q = if q = r then b else s.reg q := by
  simp only [State.reg, State.setReg, Vector.getElem_set]
  by_cases h : q = r
  · simp [h]
  · have : r.toNat ≠ q.toNat := fun e => h (BitVec.eq_of_toNat_eq e.symm)
    simp [h, this]

@[simp] theorem State.reg_setReg_self (s : State) (r : RegIdx) (b : Byte) : (s.setReg r b).reg r = b := by
  simp [State.reg_setReg]

/-- A register reads alike in states with the same register file. -/
theorem State.reg_congr {s t : State} (h : t.v = s.v) (q : RegIdx) : t.reg q = s.reg q := by
  simp only [State.reg, h]

@[simp] theorem State.reg_setPc (s : State) (a : Half) (q : RegIdx) : (s.setPc a).reg q = s.reg q := rfl
@[simp] theorem State.reg_advance (s : State) (q : RegIdx) : s.advance.reg q = s.reg q := rfl
@[simp] theorem State.reg_skipIf (s : State) (c : Bool) (q : RegIdx) : (s.skipIf c).reg q = s.reg q := rfl
@[simp] theorem State.reg_setStack (s : State) (e : Vector Half 16) (p : Byte) (q : RegIdx) :
    (s.setStack e p).reg q = s.reg q := rfl
@[simp] theorem State.reg_setI (s : State) (a : Half) (q : RegIdx) : (s.setI a).reg q = s.reg q := rfl
@[simp] theorem State.reg_raise (s : State) (c : FaultCause) (q : RegIdx) : (s.raise c).reg q = s.reg q := rfl
@[simp] theorem State.reg_refuse (s : State) (r : RefuseReason) (q : RegIdx) : (s.refuse r).reg q = s.reg q := rfl
@[simp] theorem State.reg_writeByte (s : State) (a : Nat) (b : Byte) (q : RegIdx) :
    (s.writeByte a b).reg q = s.reg q := rfl
@[simp] theorem State.reg_setFb (s : State) (f : Framebuffer) (q : RegIdx) : (s.setFb f).reg q = s.reg q := rfl
@[simp] theorem State.reg_setDelay (s : State) (b : Byte) (q : RegIdx) : (s.setDelay b).reg q = s.reg q := rfl
@[simp] theorem State.reg_setSound (s : State) (b : Byte) (q : RegIdx) : (s.setSound b).reg q = s.reg q := rfl
@[simp] theorem State.reg_setKey (s : State) (k : RegIdx) (p : Bool) (q : RegIdx) :
    (s.setKey k p).reg q = s.reg q := rfl
@[simp] theorem State.reg_draw (s : State) (q : RegIdx) : s.draw.2.reg q = s.reg q := rfl

/-- Result and flag (R151): the flag wins in `VF`, the result stands in `V[x]` otherwise, nothing else changes. -/
theorem State.reg_setRegFlag (s : State) (x q : RegIdx) (a f : Byte) :
    (s.setRegFlag x a f).reg q = if q = VF then f else if q = x then a else s.reg q := by
  simp only [State.setRegFlag, State.reg_setReg]

/-- The result of a logic instruction (R155). -/
theorem State.reg_setRegLogic (s : State) (x q : RegIdx) (a : Byte) :
    (s.setRegLogic x a).reg q =
      if s.params.logicClearsVF = true ∧ q = VF then 0x00#8 else if q = x then a else s.reg q := by
  unfold State.setRegLogic
  by_cases h : s.params.logicClearsVF = true
  · simp [h, State.reg_setRegFlag]
  · simp [h, State.reg_setReg]

/-- A result with its flag changes the register file alone. -/
theorem State.setRegFlag_eq (s : State) (x : RegIdx) (a f : Byte) :
    s.setRegFlag x a f = { s with v := (s.setRegFlag x a f).v } := rfl

/-- A logic result changes the register file alone. -/
theorem State.setRegLogic_eq (s : State) (x : RegIdx) (a : Byte) :
    s.setRegLogic x a = { s with v := (s.setRegLogic x a).v } := by
  unfold State.setRegLogic
  split <;> rfl

/-- Writing consecutive registers changes the register file alone. -/
theorem State.setRegs_eq (s : State) (k : Nat) (bs : List Byte) :
    s.setRegs k bs = { s with v := (s.setRegs k bs).v } := by
  induction bs generalizing s k with
  | nil => rfl
  | cons b bs ih => simp only [State.setRegs]; rw [ih]; rfl

/-- `V[q]` after the registers from `V[k]` on took the bytes `bs` (R195). -/
theorem State.reg_setRegs (s : State) (k : Nat) (bs : List Byte) (h : k + bs.length ≤ 16) (q : RegIdx) :
    (s.setRegs k bs).reg q =
      if k ≤ q.toNat ∧ q.toNat < k + bs.length then bs.getD (q.toNat - k) 0x00#8 else s.reg q := by
  induction bs generalizing s k with
  | nil => rw [if_neg (by simp)]; rfl
  | cons b bs ih =>
    have hk : k < 16 := by simp at h; omega
    simp only [State.setRegs]
    rw [ih _ _ (by simp at h ⊢; omega), State.reg_setReg]
    have hq : q = BitVec.ofNat 4 k ↔ q.toNat = k := by
      constructor
      · rintro rfl; simp; omega
      · intro e; apply BitVec.eq_of_toNat_eq; simp; omega
    by_cases e : q.toNat = k
    · simp [hq, e]
    · simp only [hq, e, if_false, List.length_cons]
      by_cases e2 : k + 1 ≤ q.toNat ∧ q.toNat < k + 1 + bs.length
      · have e3 : k ≤ q.toNat ∧ q.toNat < k + (bs.length + 1) := by omega
        have e4 : q.toNat - k = (q.toNat - (k + 1)) + 1 := by omega
        simp [e2, e3, e4]
      · have e3 : ¬ (k ≤ q.toNat ∧ q.toNat < k + (bs.length + 1)) := by omega
        simp only [e2, e3, if_false]

/-! ## The program counter -/

theorem State.pcNext_toNat (s : State) : s.pcNext.toNat = (s.pc.toNat + 2) % 4096 := by
  simp only [State.pcNext, memSize, BitVec.toNat_ofNat]; omega

theorem State.pcSkip_toNat (s : State) : s.pcSkip.toNat = (s.pc.toNat + 4) % 4096 := by
  simp only [State.pcSkip, memSize, BitVec.toNat_ofNat]; omega

/-! ## The stack -/

/-- A push below the full stack (R31). -/
theorem State.push_some (s : State) (a : Half) (h : s.sp.toNat < 16) :
    s.push a = some (s.setStack (s.stack.set s.sp.toNat a h) (s.sp + 1#8)) := by
  simp only [State.push, stackDepth, h, if_true, Nat.mod_eq_of_lt h]

/-- A push on a full stack (R31). -/
theorem State.push_none (s : State) (a : Half) (h : 16 ≤ s.sp.toNat) : s.push a = none := by
  unfold State.push
  exact if_neg (by simp only [stackDepth]; omega)

/-- A pop of a stack that holds 1 to 16 entries (R32). -/
theorem State.pop_some (s : State) (h : s.sp ≠ 0x00#8) (h16 : s.sp.toNat ≤ 16) :
    s.pop = some (s.stack[s.sp.toNat - 1]'(by
      have : s.sp.toNat ≠ 0 := fun e => h (BitVec.eq_of_toNat_eq (by simpa using e))
      omega), s.setStack s.stack (s.sp - 1#8)) := by
  have h0 : s.sp.toNat ≠ 0 := fun e => h (BitVec.eq_of_toNat_eq (by simpa using e))
  simp only [State.pop, if_neg h, Nat.mod_eq_of_lt (show s.sp.toNat - 1 < 16 by omega)]

/-- A pop of the empty stack (R32). -/
theorem State.pop_none (s : State) (h : s.sp = 0x00#8) : s.pop = none := by simp [State.pop, h]

/-! ## Memory -/

/-- A read after a write of the cells: the byte written, or what stood there. -/
theorem lookup_memWrite (u : Byte) (m : Memory) (a c : Nat) (b : Byte) (h : m.Pairwise (fun x y => x.1 < y.1)) :
    (lookup (memWrite u m a b) c).getD u = if c = a then b else (lookup m c).getD u := by
  induction m with
  | nil =>
    by_cases hc : c = a
    · by_cases hb : b = u <;> simp [memWrite, lookup, hb, hc]
    · have hca : a ≠ c := Ne.symm hc
      by_cases hb : b = u <;> simp [memWrite, lookup, hb, hc, hca]
  | cons kv m ih =>
    obtain ⟨k, v⟩ := kv
    rw [List.pairwise_cons] at h
    have miss : ∀ d, d ≤ k → lookup m d = none := by
      intro d hd
      have : ∀ x ∈ m, d < x.1 := fun x hx => lt_of_le_of_lt hd (h.1 x hx)
      clear ih h
      induction m with
      | nil => rfl
      | cons y m ih =>
        have hy := this y (by simp)
        rw [show lookup (y :: m) d = if y.1 = d then some y.2 else lookup m d from rfl, if_neg (by omega)]
        exact ih (fun x hx => this x (by simp [hx]))
    simp only [memWrite]
    split
    · rename_i hlt
      split
      · rename_i hb
        by_cases hc : c = a
        · subst hc
          have hkc : k ≠ c := by omega
          simp [lookup, hkc, miss c (by omega), hb]
        · simp [hc]
      · by_cases hc : c = a
        · subst hc; simp [lookup]
        · simp [lookup, hc, Ne.symm hc]
    · rename_i hnlt
      split
      · rename_i hak
        subst hak
        split
        · rename_i hb
          by_cases hc : c = a
          · subst hc; simp [miss c (le_refl _), hb]
          · simp [lookup, hc, Ne.symm hc]
        · by_cases hc : c = a
          · subst hc; simp [lookup]
          · simp [lookup, hc, Ne.symm hc]
      · rename_i hne
        by_cases hck : k = c
        · have hca : c ≠ a := fun e => hne (by omega)
          simp [lookup, hck, hca]
        · simp only [lookup, if_neg hck]
          exact ih h.2

/-- Writing one cell leaves the cells of other addresses alone, whatever unlisted addresses read as. -/
theorem lookup_memWrite_ne (u : Byte) (m : Memory) (a c : Nat) (b : Byte) (hc : c ≠ a) :
    lookup (memWrite u m a b) c = lookup m c := by
  induction m with
  | nil => by_cases hb : b = u <;> simp [memWrite, lookup, hb, Ne.symm hc]
  | cons kv m ih =>
    obtain ⟨k, v⟩ := kv
    simp only [memWrite]
    split
    · split <;> simp [lookup, Ne.symm hc]
    · split
      · rename_i hak
        subst hak
        split <;> simp [lookup, Ne.symm hc]
      · simp only [lookup, ih]

/-- Every cell after a write is the written one or was there before. -/
theorem mem_memWrite (u : Byte) (m : Memory) (a : Nat) (b : Byte) (c : Host.Cell) (h : c ∈ memWrite u m a b) :
    c ∈ m ∨ (c = (a, b) ∧ b ≠ u) := by
  induction m with
  | nil =>
    by_cases hb : b = u
    · simp [memWrite, hb] at h
    · simp [memWrite, hb] at h; simp [h, hb]
  | cons kv m ih =>
    obtain ⟨k, v⟩ := kv
    simp only [memWrite] at h
    split at h
    · split at h
      · exact .inl h
      · rename_i hb
        rcases List.mem_cons.1 h with h | h
        · exact .inr ⟨h, hb⟩
        · exact .inl h
    · split at h
      · split at h
        · exact .inl (by simp [h])
        · rename_i hb
          rcases List.mem_cons.1 h with h | h
          · exact .inr ⟨h, hb⟩
          · exact .inl (by simp [h])
      · rcases List.mem_cons.1 h with h | h
        · exact .inl (by simp [h])
        · rcases ih h with h | h
          · exact .inl (by simp [h])
          · exact .inr h

/-- A write keeps the addresses rising. -/
theorem memWrite_rising (u : Byte) (m : Memory) (a : Nat) (b : Byte) (h : m.Pairwise (fun x y => x.1 < y.1)) :
    (memWrite u m a b).Pairwise (fun x y => x.1 < y.1) := by
  induction m with
  | nil => by_cases hb : b = u <;> simp [memWrite, hb]
  | cons kv m ih =>
    obtain ⟨k, v⟩ := kv
    have h' := List.pairwise_cons.1 h
    simp only [memWrite]
    split
    · rename_i hlt
      split
      · exact h
      · refine List.pairwise_cons.2 ⟨?_, h⟩
        intro c hc
        rcases List.mem_cons.1 hc with rfl | hc
        · exact hlt
        · exact lt_trans hlt (h'.1 c hc)
    · rename_i hnlt
      split
      · rename_i hak
        subst hak
        split
        · exact h'.2
        · exact List.pairwise_cons.2 ⟨h'.1, h'.2⟩
      · rename_i hne
        refine List.pairwise_cons.2 ⟨?_, ih h'.2⟩
        intro c hc
        rcases mem_memWrite u m a b c hc with hc | ⟨rfl, -⟩
        · exact h'.1 c hc
        · show k < a
          omega

/-- A write inside memory keeps the canonical form. -/
theorem memWrite_wf (p : Params) (m : Memory) (a : Nat) (b : Byte) (h : Memory.wf p m) (ha : a < memSize) :
    Memory.wf p (memWrite (resetByte p a) m a b) := by
  refine ⟨memWrite_rising _ _ _ _ h.1, ?_⟩
  intro c hc
  rcases mem_memWrite _ _ _ _ _ hc with hc | ⟨rfl, hb⟩
  · exact h.2 c hc
  · exact ⟨ha, hb⟩

theorem State.writeByte_wf (s : State) (a : Nat) (b : Byte) (h : Memory.wf s.params s.mem) (ha : a < memSize) :
    Memory.wf (s.writeByte a b).params (s.writeByte a b).mem := memWrite_wf _ _ _ _ h ha

/-- A read of the address just written (R20's law, for memory; R75). -/
theorem State.readByte_writeByte (s : State) (a c : Nat) (b : Byte) (h : Memory.wf s.params s.mem) :
    (s.writeByte a b).readByte c = if c = a then b else s.readByte c := by
  by_cases hc : c = a
  · subst hc
    simpa [State.readByte] using lookup_memWrite (resetByte s.params c) s.mem c c b h.1
  · simp only [State.readByte, State.writeByte, lookup_memWrite_ne _ _ _ _ _ hc, if_neg hc]

/-- A write leaves every other address alone (R73), in any state. -/
theorem State.readByte_writeByte_ne (s : State) (a c : Nat) (b : Byte) (hc : c ≠ a) :
    (s.writeByte a b).readByte c = s.readByte c := by
  simp only [State.readByte, State.writeByte, lookup_memWrite_ne _ _ _ _ _ hc]

/-- Writing several bytes changes memory alone. -/
theorem State.writeBytes_eq (s : State) (a : Nat) (bs : List Byte) :
    s.writeBytes a bs = { s with mem := (s.writeBytes a bs).mem } := by
  induction bs generalizing s a with
  | nil => rfl
  | cons b bs ih => simp only [State.writeBytes]; rw [ih]; rfl

theorem State.writeBytes_params (s : State) (a : Nat) (bs : List Byte) : (s.writeBytes a bs).params = s.params := by
  rw [State.writeBytes_eq]

/-- Writing several bytes leaves every address outside them alone, in any state. -/
theorem State.readByte_writeBytes_out (s : State) (a c : Nat) (bs : List Byte) (hc : ¬ (a ≤ c ∧ c < a + bs.length)) :
    (s.writeBytes a bs).readByte c = s.readByte c := by
  induction bs generalizing s a with
  | nil => rfl
  | cons b bs ih =>
    simp only [State.writeBytes]
    simp only [List.length_cons] at hc
    rw [ih _ _ (by omega), State.readByte_writeByte_ne _ _ _ _ (by omega)]

/-- Writing several bytes inside memory keeps the canonical form. -/
theorem State.writeBytes_wf (s : State) (a : Nat) (bs : List Byte) (h : Memory.wf s.params s.mem)
    (ha : a + bs.length ≤ memSize) : Memory.wf (s.writeBytes a bs).params (s.writeBytes a bs).mem := by
  induction bs generalizing s a with
  | nil => exact h
  | cons b bs ih =>
    simp only [List.length_cons] at ha
    exact ih (s.writeByte a b) (a + 1) (s.writeByte_wf a b h (by omega)) (by omega)

/-- What an address holds after several bytes were written. -/
theorem State.readByte_writeBytes (s : State) (a c : Nat) (bs : List Byte) (h : Memory.wf s.params s.mem)
    (ha : a + bs.length ≤ memSize) :
    (s.writeBytes a bs).readByte c =
      if a ≤ c ∧ c < a + bs.length then bs.getD (c - a) 0x00#8 else s.readByte c := by
  induction bs generalizing s a with
  | nil => rw [if_neg (by simp)]; rfl
  | cons b bs ih =>
    simp only [List.length_cons] at ha
    simp only [State.writeBytes]
    rw [ih _ _ (s.writeByte_wf a b h (by omega)) (by omega), State.readByte_writeByte _ _ _ _ h]
    simp only [List.length_cons]
    by_cases e : c = a
    · subst e
      rw [if_neg (by omega), if_pos rfl, if_pos (by omega)]; simp
    · rw [if_neg e]
      by_cases e2 : a + 1 ≤ c ∧ c < a + 1 + bs.length
      · have e4 : c - a = (c - (a + 1)) + 1 := by omega
        rw [if_pos e2, if_pos (by omega), e4]; simp
      · rw [if_neg e2, if_neg (by omega)]

@[simp] theorem State.length_readBytes (s : State) (a n : Nat) : (s.readBytes a n).length = n := by
  simp [State.readBytes]

theorem State.getD_readBytes (s : State) (a n k : Nat) (h : k < n) :
    (s.readBytes a n).getD k 0x00#8 = s.readByte (a + k) := by
  simp [State.readBytes, h]

/-! ## The address checks -/

/-- No address fails: the check answers none (R72). -/
theorem firstFailing_none (fails : Nat → Bool) (a n : Nat) :
    firstFailing fails a n = none ↔ ∀ k, k < n → fails (a + k) = false := by
  simp [firstFailing]

/-- The check answers the lowest failing address (R72). -/
theorem firstFailing_some (fails : Nat → Bool) (a n c : Nat) :
    firstFailing fails a n = some c ↔
      ∃ k, k < n ∧ c = a + k ∧ fails c = true ∧ ∀ j, j < k → fails (a + j) = false := by
  induction n with
  | zero => simp [firstFailing]
  | succ n ih =>
    have step : firstFailing fails a (n + 1) =
        (firstFailing fails a n).or (if fails (a + n) then some (a + n) else none) := by
      simp [firstFailing, List.range_succ, List.find?_append, List.find?_cons]
      split <;> simp_all
    rw [step]
    rcases e : firstFailing fails a n with _ | d
    · rw [firstFailing_none] at e
      simp only [Option.none_or]
      constructor
      · intro h
        split at h
        · cases h; rename_i hf; exact ⟨n, by omega, rfl, hf, e⟩
        · cases h
      · rintro ⟨k, hk, rfl, hf, -⟩
        by_cases hkn : k < n
        · rw [e k hkn] at hf; cases hf
        · obtain rfl : k = n := by omega
          simp [hf]
    · simp only [Option.some_or]
      rw [e] at ih
      constructor
      · intro h
        obtain ⟨k, hk, r⟩ := ih.1 h
        exact ⟨k, by omega, r⟩
      · rintro ⟨k, hk, rfl, hf, hlow⟩
        by_cases hkn : k < n
        · exact ih.2 ⟨k, hkn, rfl, hf, hlow⟩
        · have hn : firstFailing fails a n = none :=
            (firstFailing_none _ _ _).2 fun j hj => hlow j (by omega)
          rw [hn] at e; cases e

/-- Every byte read lies in memory: no read fails (R67). -/
theorem State.badRead_none (s : State) (a n : Nat) (h : a + n ≤ memSize) : s.badRead a n = none := by
  simp only [State.badRead, firstFailing_none, readFails]
  intro k hk; simp; omega

/-- Every byte written lies in memory and, under protection, at or above `LOAD_OFFSET`: no write fails (R66, R67). -/
theorem State.badWrite_none (s : State) (a n : Nat) (h : a + n ≤ memSize)
    (hp : s.params.protectLow = true → s.params.loadOffset ≤ a) : s.badWrite a n = none := by
  simp only [State.badWrite, firstFailing_none, writeFails]
  intro k hk
  cases e : s.params.protectLow
  · simp; omega
  · have := hp e
    simp; omega

/-- The addresses of a write that does not fail (R66, R67). -/
theorem State.badWrite_none_inv (s : State) (a n : Nat) (h : s.badWrite a n = none) (hn : 0 < n) :
    a + n ≤ memSize ∧ (s.params.protectLow = true → s.params.loadOffset ≤ a) := by
  simp only [State.badWrite, firstFailing_none, writeFails, Bool.or_eq_false_iff] at h
  have h0 := h 0 hn
  have hl := h (n - 1) (by omega)
  simp at h0 hl
  exact ⟨by omega, fun e => by have := h0.2 e; omega⟩

theorem State.checked_none (s t : State) : s.checked none t = t := rfl

theorem State.checked_some (s t : State) (a : Nat) : s.checked (some a) t = s.raise (.addressOutOfRange a) := rfl

/-- A checked access either goes on or enters the fault, and nothing else. -/
theorem State.checked_cases (s t : State) (bad : Option Nat) :
    (bad = none ∧ s.checked bad t = t) ∨
      ∃ a, bad = some a ∧ s.checked bad t = s.raise (.addressOutOfRange a) := by
  cases bad with
  | none => exact .inl ⟨rfl, rfl⟩
  | some a => exact .inr ⟨a, rfl, rfl⟩

/-- Memory right after reset is in canonical form. -/
theorem State.reset_mem_wf : Memory.wf State.reset.params State.reset.mem := by
  constructor
  · exact List.Pairwise.nil
  · intro c hc; cases hc

end Sys2Proof.Machine
end

