-- ==== Sys2Proof/Laws/Operands.lean ====
section
/-! SUPPORT. What each operand form gives, said once: targets, the nibble held in a register, glyph addresses, the bulk
index update, key events, and the address checks in the words of R66, R67 and R72. -/

namespace Sys2Proof.Machine

/-- A 12-bit address as a number (R93). -/
@[simp] theorem address_toNat (nnn : Addr12) : (address nnn).toNat = nnn.toNat := by
  have := nnn.isLt
  simp [address, BitVec.toNat_setWidth]; omega

/-- The target of BNNN is the exact sum (R124). -/
@[simp] theorem offsetTarget_toNat (nnn : Addr12) (v0 : Byte) : (offsetTarget nnn v0).toNat = nnn.toNat + v0.toNat := by
  have := nnn.isLt
  have := v0.isLt
  simp only [offsetTarget, BitVec.toNat_ofNat]; omega

/-- A flag as a number (R7). -/
theorem flagByte_toNat (c : Bool) : (flagByte c).toNat = if c then 1 else 0 := by cases c <;> rfl

/-- The nibble operand is the low nibble, unless the policy refuses it (R192, R252, R253). -/
theorem State.nibbleOperand_some (s : State) (x : RegIdx)
    (h : (s.reg x).toNat ≤ 0xF ∨ s.params.nibblePolicy = .mask) :
    s.nibbleOperand x = some ((s.reg x).extractLsb' 0 4) := by
  unfold State.nibbleOperand
  split
  · rcases h with h | h
    · omega
    · simp [h]
  · rfl

/-- Above 0xF the policy `refuse` refuses it. -/
theorem State.nibbleOperand_none (s : State) (x : RegIdx) (h : (s.reg x).toNat > 0xF)
    (hp : s.params.nibblePolicy = .refuse) : s.nibbleOperand x = none := by
  unfold State.nibbleOperand; simp [h, hp]

/-- `bulk_inc` adds the policy's amount, exactly, where the transfer lies in memory (R196). -/
theorem bulkInc_toNat (p : Params) (i : Half) (x : RegIdx) (h : i.toNat + x.toNat ≤ 4095) :
    (bulkInc p i x).toNat = i.toNat + bulkAmount p x := by
  have := x.isLt
  unfold bulkInc bulkAmount
  cases p.bulkIncrement <;> simp <;> omega

/-- `writeFails` says what R66 and R67 say. -/
theorem writeFails_iff (p : Params) (a : Nat) : writeFails p a = true ↔ WriteFails p a := by
  unfold writeFails WriteFails memSize
  rw [Bool.or_eq_true, Bool.and_eq_true, decide_eq_true_eq, decide_eq_true_eq]
  rfl

/-- `readFails` says what R67 says. -/
theorem readFails_iff (a : Nat) : readFails a = true ↔ a > 4095 := by
  unfold readFails memSize
  rw [decide_eq_true_eq]
  rfl

/-- A write none of whose addresses fails passes the check (R72). -/
theorem State.badWrite_eq_none (s : State) (a n : Nat) (h : ∀ k, k < n → ¬ WriteFails s.params (a + k)) :
    s.badWrite a n = none := by
  simp only [State.badWrite, firstFailing_none]
  intro k hk
  rw [← Bool.not_eq_true, writeFails_iff]
  exact h k hk

/-- A write with a failing address is answered with the lowest one (R72). -/
theorem State.badWrite_eq_some (s : State) (b n a : Nat) (h : LowestFailing (WriteFails s.params) b n a) :
    s.badWrite b n = some a := by
  simp only [State.badWrite, firstFailing_some]
  obtain ⟨h1, h2, h3, h4⟩ := h
  refine ⟨a - b, by omega, by omega, (writeFails_iff _ _).2 h3, ?_⟩
  intro j hj
  rw [← Bool.not_eq_true, writeFails_iff]
  exact h4 _ (by omega) (by omega)

/-- A read with a failing address is answered with the lowest one (R72). -/
theorem State.badRead_eq_some (s : State) (b n a : Nat) (h : LowestFailing (· > 4095) b n a) :
    s.badRead b n = some a := by
  simp only [State.badRead, firstFailing_some]
  obtain ⟨h1, h2, h3, h4⟩ := h
  refine ⟨a - b, by omega, by omega, (readFails_iff _).2 h3, ?_⟩
  intro j hj
  rw [← Bool.not_eq_true, readFails_iff]
  exact h4 _ (by omega) (by omega)

/-- A key event writes one bit of the bitmap (R250). -/
theorem State.isPressed_setKey (s : State) (k j : RegIdx) (p : Bool) :
    (s.setKey k p).isPressed j = if j = k then p else s.isPressed j := by
  simp only [State.isPressed, State.setKey, Vector.getElem_set]
  by_cases h : j = k
  · simp [h]
  · have : k.toNat ≠ j.toNat := fun e => h (BitVec.eq_of_toNat_eq e.symm)
    simp [h, this]

/-- A host call changes only the key bitmap and the time, or ends a wait (R250, R255, R286). -/
theorem State.hostCall_cases (s : State) (c : HostCall) :
    (∃ num den, c = .advanceTime num den ∧ s.hostCall c = { s with time := s.time + mkRat num den }) ∨
      (∃ k p, c = .setPressed k p ∧ s.hostCall c = s.setKey k p) ∨
      (∃ k x, c = .setPressed k true ∧ s.ctl = .waitingForKey x ∧ s.isPressed k = false ∧
        s.hostCall c = s.endWait x k) := by
  cases c with
  | advanceTime num den => exact .inl ⟨num, den, rfl, rfl⟩
  | setPressed k p =>
    refine .inr ?_
    simp only [State.hostCall, State.setPressed]
    split
    · rename_i x hx
      split
      · rename_i hp
        simp only [Bool.and_eq_true, Bool.not_eq_true'] at hp
        obtain ⟨rfl, hk⟩ := hp
        exact .inr ⟨k, x, rfl, hx, hk, rfl⟩
      · exact .inl ⟨k, p, rfl, rfl⟩
    · exact .inl ⟨k, p, rfl, rfl⟩
    · exact .inl ⟨k, p, rfl, rfl⟩

end Sys2Proof.Machine
end

