-- ==== Sys2Proof/Laws/PerInstr.lean ====
section
/-! SUPPORT. The per-instruction family RowMatch: the word of an instruction selects the row of the opcode map that is
its own (30_encoding R94: "a word `w` selects the row when `w AND mask == match`"). -/

namespace Sys2Proof.Laws.RowMatch

/-- The mask of an instruction's row of R94. -/
def mask : Instr → Half
  | .cls => 0xFFFF#16
  | .ret => 0xFFFF#16
  | .jp _ => 0xF000#16
  | .call _ => 0xF000#16
  | .seImm _ _ => 0xF000#16
  | .sneImm _ _ => 0xF000#16
  | .seReg _ _ => 0xF00F#16
  | .ldImm _ _ => 0xF000#16
  | .addImm _ _ => 0xF000#16
  | .ldReg _ _ => 0xF00F#16
  | .orReg _ _ => 0xF00F#16
  | .andReg _ _ => 0xF00F#16
  | .xorReg _ _ => 0xF00F#16
  | .addReg _ _ => 0xF00F#16
  | .sub _ _ => 0xF00F#16
  | .shr _ _ => 0xF00F#16
  | .subn _ _ => 0xF00F#16
  | .shl _ _ => 0xF00F#16
  | .sneReg _ _ => 0xF00F#16
  | .ldI _ => 0xF000#16
  | .jpV0 _ => 0xF000#16
  | .rnd _ _ => 0xF000#16
  | .drw _ _ _ => 0xF000#16
  | .skp _ => 0xF0FF#16
  | .sknp _ => 0xF0FF#16
  | .ldFromDt _ => 0xF0FF#16
  | .ldKey _ => 0xF0FF#16
  | .ldDt _ => 0xF0FF#16
  | .ldSt _ => 0xF0FF#16
  | .addI _ => 0xF0FF#16
  | .ldF _ => 0xF0FF#16
  | .ldB _ => 0xF0FF#16
  | .store _ => 0xF0FF#16
  | .load _ => 0xF0FF#16

/-- The match of an instruction's row of R94. -/
def pattern : Instr → Half
  | .cls => 0x00E0#16
  | .ret => 0x00EE#16
  | .jp _ => 0x1000#16
  | .call _ => 0x2000#16
  | .seImm _ _ => 0x3000#16
  | .sneImm _ _ => 0x4000#16
  | .seReg _ _ => 0x5000#16
  | .ldImm _ _ => 0x6000#16
  | .addImm _ _ => 0x7000#16
  | .ldReg _ _ => 0x8000#16
  | .orReg _ _ => 0x8001#16
  | .andReg _ _ => 0x8002#16
  | .xorReg _ _ => 0x8003#16
  | .addReg _ _ => 0x8004#16
  | .sub _ _ => 0x8005#16
  | .shr _ _ => 0x8006#16
  | .subn _ _ => 0x8007#16
  | .shl _ _ => 0x800E#16
  | .sneReg _ _ => 0x9000#16
  | .ldI _ => 0xA000#16
  | .jpV0 _ => 0xB000#16
  | .rnd _ _ => 0xC000#16
  | .drw _ _ _ => 0xD000#16
  | .skp _ => 0xE09E#16
  | .sknp _ => 0xE0A1#16
  | .ldFromDt _ => 0xF007#16
  | .ldKey _ => 0xF00A#16
  | .ldDt _ => 0xF015#16
  | .ldSt _ => 0xF018#16
  | .addI _ => 0xF01E#16
  | .ldF _ => 0xF029#16
  | .ldB _ => 0xF033#16
  | .store _ => 0xF055#16
  | .load _ => 0xF065#16

/-- An instruction is well formed and its word selects its row (R94). -/
def Statement (i : Instr) : Prop := i.wellFormed = true ∧ encode i &&& mask i = pattern i

/-- A word `op NNN` under the mask of its row. -/
theorem and_wordNNN (op : BitVec 4) (nnn : Addr12) : wordNNN op nnn &&& 0xF000#16 = op.setWidth 16 <<< 12 := by
  apply BitVec.eq_of_getLsbD_eq; intro k hk; rw [BitVec.getLsbD_and, getLsbD_wordNNN]; interval_cases k <;> simp

/-- A word `op X NN` under the mask that keeps `op`. -/
theorem and_wordXNN (op : BitVec 4) (x : RegIdx) (nn : Byte) :
    wordXNN op x nn &&& 0xF000#16 = op.setWidth 16 <<< 12 := by
  apply BitVec.eq_of_getLsbD_eq; intro k hk; rw [BitVec.getLsbD_and, getLsbD_wordXNN]; interval_cases k <;> simp

/-- A word `op X NN` under the mask that keeps `op` and `NN`. -/
theorem and_wordXNN_minor (op : BitVec 4) (x : RegIdx) (nn : Byte) :
    wordXNN op x nn &&& 0xF0FF#16 = op.setWidth 16 <<< 12 ||| nn.setWidth 16 := by
  apply BitVec.eq_of_getLsbD_eq; intro k hk; rw [BitVec.getLsbD_and, getLsbD_wordXNN]; interval_cases k <;> simp

/-- A word `op X Y N` under the mask that keeps `op` and `N`. -/
theorem and_wordXYN_minor (op : BitVec 4) (x y : RegIdx) (n : BitVec 4) :
    wordXYN op x y n &&& 0xF00F#16 = op.setWidth 16 <<< 12 ||| n.setWidth 16 := by
  apply BitVec.eq_of_getLsbD_eq; intro k hk; rw [BitVec.getLsbD_and, getLsbD_wordXYN]; interval_cases k <;> simp

/-- A word `op X Y N` under the mask that keeps `op`. -/
theorem and_wordXYN (op : BitVec 4) (x y : RegIdx) (n : BitVec 4) :
    wordXYN op x y n &&& 0xF000#16 = op.setWidth 16 <<< 12 := by
  apply BitVec.eq_of_getLsbD_eq; intro k hk; rw [BitVec.getLsbD_and, getLsbD_wordXYN]; interval_cases k <;> simp

theorem cls : Statement .cls := ⟨rfl, rfl⟩
theorem ret : Statement .ret := ⟨rfl, rfl⟩
theorem jp (nnn : Addr12) : Statement (.jp nnn) := ⟨rfl, and_wordNNN _ nnn⟩
theorem call (nnn : Addr12) : Statement (.call nnn) := ⟨rfl, and_wordNNN _ nnn⟩
theorem seImm (x : RegIdx) (nn : Byte) : Statement (.seImm x nn) := ⟨rfl, and_wordXNN _ x nn⟩
theorem sneImm (x : RegIdx) (nn : Byte) : Statement (.sneImm x nn) := ⟨rfl, and_wordXNN _ x nn⟩
theorem seReg (x : RegIdx) (y : RegIdx) : Statement (.seReg x y) := ⟨rfl, and_wordXYN_minor _ x y _⟩
theorem ldImm (x : RegIdx) (nn : Byte) : Statement (.ldImm x nn) := ⟨rfl, and_wordXNN _ x nn⟩
theorem addImm (x : RegIdx) (nn : Byte) : Statement (.addImm x nn) := ⟨rfl, and_wordXNN _ x nn⟩
theorem ldReg (x : RegIdx) (y : RegIdx) : Statement (.ldReg x y) := ⟨rfl, and_wordXYN_minor _ x y _⟩
theorem orReg (x : RegIdx) (y : RegIdx) : Statement (.orReg x y) := ⟨rfl, and_wordXYN_minor _ x y _⟩
theorem andReg (x : RegIdx) (y : RegIdx) : Statement (.andReg x y) := ⟨rfl, and_wordXYN_minor _ x y _⟩
theorem xorReg (x : RegIdx) (y : RegIdx) : Statement (.xorReg x y) := ⟨rfl, and_wordXYN_minor _ x y _⟩
theorem addReg (x : RegIdx) (y : RegIdx) : Statement (.addReg x y) := ⟨rfl, and_wordXYN_minor _ x y _⟩
theorem sub (x : RegIdx) (y : RegIdx) : Statement (.sub x y) := ⟨rfl, and_wordXYN_minor _ x y _⟩
theorem shr (x : RegIdx) (y : RegIdx) : Statement (.shr x y) := ⟨rfl, and_wordXYN_minor _ x y _⟩
theorem subn (x : RegIdx) (y : RegIdx) : Statement (.subn x y) := ⟨rfl, and_wordXYN_minor _ x y _⟩
theorem shl (x : RegIdx) (y : RegIdx) : Statement (.shl x y) := ⟨rfl, and_wordXYN_minor _ x y _⟩
theorem sneReg (x : RegIdx) (y : RegIdx) : Statement (.sneReg x y) := ⟨rfl, and_wordXYN_minor _ x y _⟩
theorem ldI (nnn : Addr12) : Statement (.ldI nnn) := ⟨rfl, and_wordNNN _ nnn⟩
theorem jpV0 (nnn : Addr12) : Statement (.jpV0 nnn) := ⟨rfl, and_wordNNN _ nnn⟩
theorem rnd (x : RegIdx) (nn : Byte) : Statement (.rnd x nn) := ⟨rfl, and_wordXNN _ x nn⟩
theorem drw (x : RegIdx) (y : RegIdx) (n : BitVec 4) : Statement (.drw x y n) := ⟨rfl, and_wordXYN _ x y n⟩
theorem skp (x : RegIdx) : Statement (.skp x) := ⟨rfl, and_wordXNN_minor _ x _⟩
theorem sknp (x : RegIdx) : Statement (.sknp x) := ⟨rfl, and_wordXNN_minor _ x _⟩
theorem ldFromDt (x : RegIdx) : Statement (.ldFromDt x) := ⟨rfl, and_wordXNN_minor _ x _⟩
theorem ldKey (x : RegIdx) : Statement (.ldKey x) := ⟨rfl, and_wordXNN_minor _ x _⟩
theorem ldDt (x : RegIdx) : Statement (.ldDt x) := ⟨rfl, and_wordXNN_minor _ x _⟩
theorem ldSt (x : RegIdx) : Statement (.ldSt x) := ⟨rfl, and_wordXNN_minor _ x _⟩
theorem addI (x : RegIdx) : Statement (.addI x) := ⟨rfl, and_wordXNN_minor _ x _⟩
theorem ldF (x : RegIdx) : Statement (.ldF x) := ⟨rfl, and_wordXNN_minor _ x _⟩
theorem ldB (x : RegIdx) : Statement (.ldB x) := ⟨rfl, and_wordXNN_minor _ x _⟩
theorem store (x : RegIdx) : Statement (.store x) := ⟨rfl, and_wordXNN_minor _ x _⟩
theorem load (x : RegIdx) : Statement (.load x) := ⟨rfl, and_wordXNN_minor _ x _⟩

end Sys2Proof.Laws.RowMatch
end

