-- ==== Sys2Proof/Laws/Scheduler.lean ====
section
/-! SUPPORT. What the scheduler does, said once: when a slot is due and which is sooner, in seconds; what `pick` can
answer; and every form a move of the core can take (60_exceptions R285 to R295). -/

namespace Sys2Proof.Machine

/-- Every stream's rate is positive under a legal configuration (R37). -/
theorem State.rate_pos (s : State) (h : s.config.legal) (a : Stream) : 0 < s.rate a := by
  cases a
  · exact h.1
  · show 0 < 60; decide
  · exact h.2.1

/-- A slot is due when `k ≤ T * R` (R286). -/
theorem State.due_iff (s : State) (a : Stream) :
    s.due a = true ↔ (s.nextSlot a : Rat) ≤ s.time * (s.rate a : Rat) := by
  simp only [State.due, decide_eq_true_eq]
  have hd : (0 : Rat) < (s.time.den : Rat) := by exact_mod_cast s.time.den_pos
  have e : s.time * (s.rate a : Rat) = (s.time.num * (s.rate a : Int) : Int) / (s.time.den : Rat) := by
    conv_lhs => rw [← Rat.num_div_den s.time]
    push_cast; ring
  rw [e, le_div_iff₀ hd]
  exact_mod_cast Iff.rfl

/-- A slot is due when its deadline is at or before `T` (R285, R286). -/
theorem State.due_iff_deadline (s : State) (h : s.config.legal) (a : Stream) :
    s.due a = true ↔ s.deadline a ≤ s.time := by
  have hr : (0 : Rat) < (s.rate a : Rat) := by exact_mod_cast s.rate_pos h a
  rw [State.due_iff, State.deadline, div_le_iff₀ hr]

/-- The comparison of two next slots is that of their deadlines (R285). -/
theorem State.earlier_iff (s : State) (h : s.config.legal) (a b : Stream) :
    s.earlier a b = true ↔ s.deadline a < s.deadline b := by
  have ha : (0 : Rat) < (s.rate a : Rat) := by exact_mod_cast s.rate_pos h a
  have hb : (0 : Rat) < (s.rate b : Rat) := by exact_mod_cast s.rate_pos h b
  simp only [State.earlier, decide_eq_true_eq, State.deadline]
  rw [div_lt_div_iff₀ ha hb]
  exact_mod_cast Iff.rfl

/-- Every stream stands in `allStreams`. -/
theorem mem_allStreams (a : Stream) : a ∈ allStreams := by cases a <;> simp [allStreams]

/-- The soonest streams are due, and no next slot is earlier (R286). -/
theorem State.mem_soonest (s : State) (a : Stream) :
    a ∈ s.soonest ↔ s.due a = true ∧ ∀ b, s.earlier b a = false := by
  simp only [State.soonest, List.mem_filter, mem_allStreams, true_and, Bool.and_eq_true, List.all_eq_true,
    Bool.not_eq_true', forall_const]

/-- With a due slot there is a soonest one (R286). -/
theorem State.soonest_ne_nil (s : State) (h : s.config.legal) (b : Stream) (hb : s.due b = true) : s.soonest ≠ [] := by
  have hmin : ∃ a, ∀ c, s.deadline a ≤ s.deadline c := by
    have least : ∀ x y z : Stream, s.deadline x ≤ s.deadline y → s.deadline x ≤ s.deadline z →
        (∀ c, c = x ∨ c = y ∨ c = z) → ∃ a, ∀ c, s.deadline a ≤ s.deadline c := by
      intro x y z hy hz all
      refine ⟨x, fun c => ?_⟩
      rcases all c with rfl | rfl | rfl
      · exact le_refl _
      · exact hy
      · exact hz
    rcases le_total (s.deadline .instr) (s.deadline .tick) with h1 | h1 <;>
      rcases le_total (s.deadline .tick) (s.deadline .frame) with h2 | h2 <;>
      rcases le_total (s.deadline .instr) (s.deadline .frame) with h3 | h3
    · exact least .instr .tick .frame h1 h3 (by intro c; cases c <;> simp)
    · exact least .instr .tick .frame h1 (le_trans h1 h2) (by intro c; cases c <;> simp)
    · exact least .instr .tick .frame h1 h3 (by intro c; cases c <;> simp)
    · exact least .frame .tick .instr h2 h3 (by intro c; cases c <;> simp)
    · exact least .tick .instr .frame h1 h2 (by intro c; cases c <;> simp)
    · exact least .tick .instr .frame h1 h2 (by intro c; cases c <;> simp)
    · exact least .frame .tick .instr h2 (le_trans h2 h1) (by intro c; cases c <;> simp)
    · exact least .frame .tick .instr h2 h3 (by intro c; cases c <;> simp)
  obtain ⟨a, hmin⟩ := hmin
  intro e
  have : a ∈ s.soonest := by
    rw [State.mem_soonest]
    refine ⟨?_, ?_⟩
    · rw [State.due_iff_deadline _ h] at hb ⊢
      exact le_trans (hmin b) hb
    · intro c
      rw [← Bool.not_eq_true, State.earlier_iff _ h]
      exact not_lt.2 (hmin c)
  rw [e] at this
  cases this

/-- What `pick` answers: a soonest stream, and the same state but for the tie counter (R286, R290). -/
theorem State.pick_some (s u : State) (a : Stream) (h : s.pick = some (a, u)) :
    a ∈ s.soonest ∧ u = { s with ties := u.ties } ∧ (u.ties = s.ties ∨ u.ties = s.ties + 1) := by
  unfold State.pick at h
  split at h
  · cases h
  · rename_i b e
    cases h
    exact ⟨by simp [e], rfl, .inl rfl⟩
  · rename_i b c more e
    cases h
    refine ⟨?_, rfl, .inr rfl⟩
    rw [e, List.getD_eq_getElem?_getD]
    have hlt : Config.tieChoice s.ties % (more.length + 2) < (b :: c :: more).length := by
      have := Nat.mod_lt (Config.tieChoice s.ties) (show 0 < more.length + 2 by omega)
      simpa using Nat.le_of_lt_succ this
    rw [List.getElem?_eq_getElem hlt, Option.getD_some]
    exact List.getElem_mem hlt

/-- `pick` answers nothing when no slot is soonest. -/
theorem State.pick_none (s : State) : s.pick = none ↔ s.soonest = [] := by
  unfold State.pick
  split <;> simp_all

/-- With nothing due `pick` answers nothing, under any configuration. -/
theorem State.pick_none_of_not_due (s : State) (h : ∀ a, s.due a = false) : s.pick = none := by
  rw [State.pick_none, List.eq_nil_iff_forall_not_mem]
  intro a ha
  rw [State.mem_soonest, h a] at ha
  exact Bool.false_ne_true ha.1

/-- The signals of a frame slot (R289): frame-ready alone when `ST` is zero, else both signals in one order or the
other (log 29). -/
theorem State.frameSignals_cases (s : State) :
    (s.st = 0x00#8 ∧ s.frameSignals = [.frameReady s.fb]) ∨
      (s.st ≠ 0x00#8 ∧ (s.frameSignals = [.frameReady s.fb, .audio s.config.beepFrequencyHz] ∨
        s.frameSignals = [.audio s.config.beepFrequencyHz, .frameReady s.fb])) := by
  by_cases h : s.st = 0x00#8
  · exact .inl ⟨h, by simp [State.frameSignals, State.beepActive, h]⟩
  · refine .inr ⟨h, ?_⟩
    cases e : Config.audioFirst s.nFrame <;> simp [State.frameSignals, State.beepActive, h, e]

/-- Every form a move of the core can take: a slot of a core that is not stopped, or the turn of its host. -/
theorem step_cases (s : State) (r : Result) (h : step s = r) :
    (s.stopped = false ∧ ∃ a u, s.pick = some (a, u) ∧ r = processSlot a u) ∨
      ((s.stopped = true ∨ s.pick = none) ∧ r = hostTurn s) := by
  subst h
  unfold step turn
  by_cases e : s.stopped = true
  · exact .inr ⟨.inl e, by rw [if_pos e]⟩
  · rw [if_neg e]
    have e : s.stopped = false := by simpa using e
    split
    · rename_i a u hp; exact .inl ⟨e, a, u, hp, rfl⟩
    · rename_i hp; exact .inr ⟨.inr hp, rfl⟩

/-- A quiet core's move is its host's turn (R295). -/
theorem step_quiet (s : State) (h : s.Quiet) : step s = hostTurn s := by
  unfold step turn
  rcases h with h | h
  · simp [h]
  · rw [State.pick_none_of_not_due s h]; split <;> rfl

/-- The turn of a host that has a call to make (R295). -/
theorem hostTurn_cons (s : State) (c : HostCall) (rest : List HostCall) (h : s.calls = c :: rest) :
    hostTurn s = .next (({ s with calls := rest } : State).hostCall c) := by
  unfold hostTurn; rw [h]

end Sys2Proof.Machine
end

