-- ==== Sys2Proof/Laws/Uninit.lean ====
section
/-! SUPPORT. What the check of `UNINIT_POLICY` and the record of written state do, said once in the words of 10_state
R44. -/

namespace Sys2Proof.Machine

/-- The model's check of a byte is R44's condition on it. -/
theorem State.byteUnwritten_iff (s : State) (a : Nat) : s.byteUnwritten a = true ↔ s.NeverWritten a := by
  simp only [State.byteUnwritten, State.NeverWritten, inFont, Bool.and_eq_true, Bool.not_eq_true',
    Bool.and_eq_false_iff, decide_eq_false_iff_not, List.contains_eq_mem, and_assoc,
    Classical.not_and_iff_not_or_not]
  exact and_congr_left' decide_eq_true_iff

/-- The model's check of a step is R44's condition on it. -/
theorem State.readsUnwritten_iff (s : State) (i : Instr) : s.readsUnwritten i = true ↔ s.ReadsNeverWritten i := by
  have hv : (readsV s.params i).any (fun r => !(s.written.v[r.toNat]'r.isLt)) = true ↔
      ∃ r ∈ readsV s.params i, s.written.v[r.toNat]? = some false := by
    simp only [List.any_eq_true, Bool.not_eq_true']
    exact exists_congr fun r => and_congr_right fun _ => by
      rw [Vector.getElem?_eq_getElem r.isLt, Option.some_inj]
  simp only [State.readsUnwritten, Bool.or_eq_true, hv, List.any_eq_true, List.mem_range, State.byteUnwritten_iff,
    Bool.and_eq_true, Bool.not_eq_true', State.ReadsNeverWritten, or_assoc]

/-- The addresses of a list into which one is put. -/
theorem mem_insertAddr (a b : Nat) (m : List Nat) : b ∈ insertAddr a m ↔ b = a ∨ b ∈ m := by
  induction m with
  | nil => simp [insertAddr]
  | cons k ks ih =>
    unfold insertAddr
    split
    · simp
    · split
      · simp_all
      · simp only [List.mem_cons, ih]; tauto

/-- The addresses of a list into which `n` addresses from `a` on are put. -/
theorem mem_insertRange (a n b : Nat) (m : List Nat) :
    b ∈ (List.range n).foldl (fun m k => insertAddr (a + k) m) m ↔ b ∈ m ∨ (a ≤ b ∧ b < a + n) := by
  induction n with
  | zero => simp
  | succ n ih =>
    rw [List.range_succ, List.foldl_append, List.foldl_cons, List.foldl_nil, mem_insertAddr, ih]
    constructor
    · rintro (h | h | h)
      · exact .inr (by omega)
      · exact .inl h
      · exact .inr (by omega)
    · rintro (h | h)
      · exact .inr (.inl h)
      · by_cases e : b = a + n
        · exact .inl e
        · exact .inr (.inr (by omega))

/-- The registers marked as written after a list of them is marked. -/
theorem getElem?_markRegs (rs : List RegIdx) (v : Vector Bool 16) (q : RegIdx) :
    (rs.foldl (fun v r => v.set r.toNat true r.isLt) v)[q.toNat]? = some true ↔
      v[q.toNat]? = some true ∨ q ∈ rs := by
  induction rs generalizing v with
  | nil => simp
  | cons r rs ih =>
    rw [List.foldl_cons, ih, Vector.getElem?_set, List.mem_cons]
    by_cases e : q = r
    · simp [e]
    · have : r.toNat ≠ q.toNat := fun h => e (BitVec.eq_of_toNat_eq h.symm)
      simp [this, e]

/-- A state whose record is the one after instruction `i` of `s` has recorded what `i` writes. -/
theorem records_after (i : Instr) (s t : State) (h : t.written = s.written.after s i) : Records i s t := by
  simp only [Records, h, Written.after]
  refine ⟨fun r => getElem?_markRegs _ _ r, ?_, ?_, fun a => mem_insertRange _ _ _ _, trivial⟩ <;>
    simp only [Bool.or_eq_true]

end Sys2Proof.Machine
end

