-- ==== Sys2Proof/Tests/Slice0.lean ====
section
/-! SUPPORT. The model's own tests: ill-formed terms that the checks refuse, decoding of words written out from the
table of 30_encoding R94, single steps and meanings against the vectors of 95_test_vectors and the examples of the
instruction rules, and for each obligation with hypotheses a state and operands that meet them. -/

namespace Sys2Proof.Tests

open Sys2Proof Sys2Proof.Machine

/-! ## Well-formedness (R37, R304, R331) -/

/-- The default configuration as a host asks for it (R37). -/
def goodRequest : ConfigRequest where
  instructionRateHz := 1000
  frameRateHz := 60
  beepFrequencyHz := 553
  gradientColoring := true

theorem test_wf_request_ok : goodRequest.legal = true := by decide
theorem test_wf_instruction_rate_zero : ({ goodRequest with instructionRateHz := 0 }).legal = false := by decide
theorem test_wf_instruction_rate_negative : ({ goodRequest with instructionRateHz := -1 }).legal = false := by decide
theorem test_wf_instruction_rate_fraction :
    ({ goodRequest with instructionRateHz := mkRat 3 2 }).legal = false := by decide
theorem test_wf_frame_rate_zero : ({ goodRequest with frameRateHz := 0 }).legal = false := by decide
theorem test_wf_frame_rate_fraction : ({ goodRequest with frameRateHz := mkRat 1 2 }).legal = false := by decide
theorem test_wf_beep_zero : ({ goodRequest with beepFrequencyHz := 0 }).legal = false := by decide
theorem test_wf_beep_fraction_ok : ({ goodRequest with beepFrequencyHz := mkRat 1 2 }).legal = true := by decide
theorem test_wf_host_config_ok : defaultConfig.legal := by decide
theorem test_wf_host_config_rate : ¬ ({ defaultConfig with instructionRateHz := 0 }).legal := by decide
theorem test_wf_host_config_frame : ¬ ({ defaultConfig with frameRateHz := 0 }).legal := by decide
theorem test_wf_host_config_beep : ¬ ({ defaultConfig with beepFrequencyHz := 0 }).legal := by decide
theorem test_wf_params_ok : decidedParams.legal := by decide
theorem test_wf_params_overlap : ¬ ({ decidedParams with fontBase := 0x1B1 }).legal := by decide
theorem test_wf_params_load_high : ¬ ({ decidedParams with loadOffset := 4097 }).legal := by decide
theorem test_wf_create_refuses : create decidedParams { goodRequest with frameRateHz := 0 } = none := by decide
/-- Every term of `Instr` is well formed: its types leave nothing to check (R91, R93). -/
theorem test_wf_every_instruction (i : Instr) : i.wellFormed = true := by cases i <;> rfl
theorem test_wf_memory_unsorted : ¬ Memory.wf decidedParams [(0x301, 0x01#8), (0x300, 0x01#8)] := by decide
theorem test_wf_memory_lists_default : ¬ Memory.wf decidedParams [(0x300, 0x00#8)] := by decide
theorem test_wf_memory_outside : ¬ Memory.wf decidedParams [(0x1000, 0x01#8)] := by decide

/-! ## Decoding (R94, R95; words written out bit by bit) -/

theorem test_decode_control :
    decode 0b0000000011101110#16 = .ok .ret ∧ decode 0b0001001000110100#16 = .ok (.jp 0x234#12) ∧
      decode 0b0010001100000000#16 = .ok (.call 0x300#12) ∧ decode 0b1011001100000000#16 = .ok (.jpV0 0x300#12) := by
  decide
theorem test_decode_skips :
    decode 0b0011001100101010#16 = .ok (.seImm 0x3#4 0x2A#8) ∧
      decode 0b0100001100101010#16 = .ok (.sneImm 0x3#4 0x2A#8) ∧
      decode 0b0101000100100000#16 = .ok (.seReg 0x1#4 0x2#4) ∧
      decode 0b1001000100100000#16 = .ok (.sneReg 0x1#4 0x2#4) := by decide
theorem test_decode_loads :
    decode 0b0110101001000010#16 = .ok (.ldImm 0xA#4 0x42#8) ∧
      decode 0b0111000100000010#16 = .ok (.addImm 0x1#4 0x02#8) ∧
      decode 0b1000000100100000#16 = .ok (.ldReg 0x1#4 0x2#4) ∧
      decode 0b1100000100001111#16 = .ok (.rnd 0x1#4 0x0F#8) := by decide
theorem test_decode_logic :
    decode 0b1000000100100001#16 = .ok (.orReg 0x1#4 0x2#4) ∧
      decode 0b1000000100100010#16 = .ok (.andReg 0x1#4 0x2#4) ∧
      decode 0b1000000100100011#16 = .ok (.xorReg 0x1#4 0x2#4) := by decide
theorem test_decode_arithmetic :
    decode 0b1000000100100100#16 = .ok (.addReg 0x1#4 0x2#4) ∧
      decode 0b1000000100100101#16 = .ok (.sub 0x1#4 0x2#4) ∧
      decode 0b1000000100100110#16 = .ok (.shr 0x1#4 0x2#4) ∧
      decode 0b1000000100100111#16 = .ok (.subn 0x1#4 0x2#4) ∧
      decode 0b1000000100101110#16 = .ok (.shl 0x1#4 0x2#4) := by decide
theorem test_decode_index :
    decode 0b1010001011110000#16 = .ok (.ldI 0x2F0#12) ∧ decode 0b1111000100011110#16 = .ok (.addI 0x1#4) ∧
      decode 0b1111001100101001#16 = .ok (.ldF 0x3#4) ∧ decode 0b1111010100110011#16 = .ok (.ldB 0x5#4) ∧
      decode 0b1111001001010101#16 = .ok (.store 0x2#4) ∧ decode 0b1111001001100101#16 = .ok (.load 0x2#4) := by decide
theorem test_decode_display :
    decode 0b0000000011100000#16 = .ok .cls ∧ decode 0b1101000000010101#16 = .ok (.drw 0x0#4 0x1#4 0x5#4) ∧
      decode 0b1101000000010000#16 = .ok (.drw 0x0#4 0x1#4 0x0#4) := by decide
theorem test_decode_timers :
    decode 0b1111001000000111#16 = .ok (.ldFromDt 0x2#4) ∧ decode 0b1111001000010101#16 = .ok (.ldDt 0x2#4) ∧
      decode 0b1111001100011000#16 = .ok (.ldSt 0x3#4) := by decide
theorem test_decode_input :
    decode 0b1110000110011110#16 = .ok (.skp 0x1#4) ∧ decode 0b1110010010100001#16 = .ok (.sknp 0x4#4) ∧
      decode 0b1111001100001010#16 = .ok (.ldKey 0x3#4) := by decide
theorem test_decode_unknown :
    decode 0x0000#16 = .error (.unknownOpcode 0x0000#16) ∧ decode 0x00E1#16 = .error (.unknownOpcode 0x00E1#16) ∧
      decode 0x0123#16 = .error (.unknownOpcode 0x0123#16) ∧ decode 0x812F#16 = .error (.unknownOpcode 0x812F#16) ∧
      decode 0x9121#16 = .error (.unknownOpcode 0x9121#16) ∧ decode 0xE19F#16 = .error (.unknownOpcode 0xE19F#16) ∧
      decode 0xF166#16 = .error (.unknownOpcode 0xF166#16) := by decide
/-- Bytes are big-endian (R68), and a lone byte is no instruction. -/
theorem test_decode_bytes :
    decodeBytes [0x12#8, 0x34#8, 0xFF#8] = .ok (.jp 0x234#12, [0xFF#8]) ∧ decodeBytes [0x12#8] = .error .truncated := by
  decide
theorem test_decode_table_word : decodeTableWord 16 0x812E = some (.shl 0x1#4 0x2#4) := by decide
theorem test_encode : encode (.drw 0x0#4 0x1#4 0x5#4) = 0xD015#16 ∧ encodeBytes (.jp 0x234#12) = [0x12#8, 0x34#8] := by
  decide

/-! ## One step each (95_test_vectors L1, L2; the examples of the instruction rules) -/

/-- The next state an answer gives, if it gives one. -/
def nextOf : Result → Option State
  | .next t => some t
  | .fault _ => none
  | .refused _ => none

/-- The state after the step that fetches and runs the word `w` in `s`. -/
def after (w : Nat) (s : State) : Option State := nextOf (step (s.withFetchWord 16 w))

/-- The reset state with some registers set. -/
def regs (l : List (RegIdx × Byte)) : State := l.foldl (fun s p => s.setReg p.1 p.2) State.reset

/-- The reset state with bytes stored from an address on. -/
def bytesAt (a : Nat) (bs : List Byte) (s : State) : State := s.writeBytes a bs

/-- L2.8: the first step of a core with no program reads 0000 and halts. -/
theorem test_empty_memory_halts :
    (after 0x0000 State.reset).map (fun t => (t.ctl, t.fault)) =
      some (.halted, some ⟨.unknownOpcode 0x0000#16, 0x200#16⟩) := by decide
theorem test_fetch_odd_pc :
    (after 0x00E0 { State.reset with pc := 0x201#16 }).map (·.fault) =
      some (some ⟨.addressOutOfRange 0x201, 0x201#16⟩) := by decide
theorem test_fetch_last_word :
    (after 0x6000 { State.reset with pc := 0xFFE#16 }).map (fun t => (t.pc, t.fault)) = some (0x000#16, none) := by decide
theorem test_fetch_above_memory :
    (after 0x00E0 { State.reset with pc := 0x1000#16 }).map (·.fault) =
      some (some ⟨.addressOutOfRange 0x1000, 0x1000#16⟩) := by decide

theorem test_ret :
    (after 0x00EE { State.reset with pc := 0x300#16, sp := 1#8, stack := State.reset.stack.set 0 0x204#16 }).map
      (fun t => (t.sp, t.pc)) = some (0#8, 0x204#16) := by decide
theorem test_ret_underflow :
    (after 0x00EE { State.reset with pc := 0x2A0#16 }).map (·.fault) = some (some ⟨.stackUnderflow, 0x2A0#16⟩) := by
  decide
theorem test_jp : (after 0x1234 State.reset).map (·.pc) = some 0x234#16 := by decide
theorem test_jp_odd : (after 0x1201 State.reset).map (fun t => (t.pc, t.fault)) = some (0x201#16, none) := by decide
theorem test_call_wraps :
    (after 0x2300 { State.reset with pc := 0xFFE#16 }).map (fun t => (t.stack[0], t.sp, t.pc)) =
      some (0x000#16, 1#8, 0x300#16) := by decide
theorem test_call_overflow :
    (after 0x2300 { State.reset with sp := 16#8 }).map (·.fault) = some (some ⟨.stackOverflow, 0x200#16⟩) := by decide
theorem test_jpV0_unreduced : (after 0xBFFF (regs [(0x0#4, 0xFF#8)])).map (·.pc) = some 0x10FE#16 := by decide
theorem test_seImm_wraps :
    (after 0x332A { regs [(0x3#4, 0x2A#8)] with pc := 0xFFE#16 }).map (·.pc) = some 0x002#16 := by decide
theorem test_seImm_not_taken : (after 0x332A (regs [(0x3#4, 0x2B#8)])).map (·.pc) = some 0x202#16 := by decide
theorem test_sneImm : (after 0x432A (regs [(0x3#4, 0x2A#8)])).map (·.pc) = some 0x202#16 := by decide
theorem test_sneImm_taken : (after 0x432A State.reset).map (·.pc) = some 0x204#16 := by decide
theorem test_seReg : (after 0x5120 (regs [(0x1#4, 5#8), (0x2#4, 5#8)])).map (·.pc) = some 0x204#16 := by decide
theorem test_sneReg : (after 0x9120 (regs [(0x1#4, 5#8), (0x2#4, 6#8)])).map (·.pc) = some 0x204#16 := by decide
theorem test_sneReg_same : (after 0x9110 State.reset).map (·.pc) = some 0x202#16 := by decide

/-- The registers `V1`, `V2` and `VF` after a word. -/
def v12F (w : Nat) (s : State) : Option (Byte × Byte × Byte) :=
  (after w s).map fun t => (t.reg 0x1#4, t.reg 0x2#4, t.reg VF)

theorem test_ldImm : (after 0x6A42 State.reset).map (fun t => (t.reg 0xA#4, t.pc)) = some (0x42#8, 0x202#16) := by decide
theorem test_addImm : v12F 0x7102 (regs [(0x1#4, 0xFF#8), (VF, 0x07#8)]) = some (0x01#8, 0x00#8, 0x07#8) := by decide
theorem test_addImm_VF : (after 0x7F01 (regs [(VF, 0xFF#8)])).map (·.reg VF) = some 0x00#8 := by decide
theorem test_ldReg : v12F 0x8120 (regs [(0x2#4, 0x07#8)]) = some (0x07#8, 0x07#8, 0x00#8) := by decide
theorem test_or :
    v12F 0x8121 (regs [(0x1#4, 0x0F#8), (0x2#4, 0xF0#8), (VF, 0x55#8)]) = some (0xFF#8, 0xF0#8, 0x55#8) := by decide
theorem test_or_clears :
    v12F 0x8F21 { regs [(VF, 0x0F#8), (0x2#4, 0xF0#8)] with params := { decidedParams with logicClearsVF := true } } =
      some (0x00#8, 0xF0#8, 0x00#8) := by decide
theorem test_and : v12F 0x8122 (regs [(0x1#4, 0x3C#8), (0x2#4, 0x0F#8)]) = some (0x0C#8, 0x0F#8, 0x00#8) := by decide
theorem test_xor : v12F 0x8123 (regs [(0x1#4, 0xFF#8), (0x2#4, 0x0F#8)]) = some (0xF0#8, 0x0F#8, 0x00#8) := by decide
theorem test_add_carry : v12F 0x8124 (regs [(0x1#4, 0xC8#8), (0x2#4, 0x64#8)]) = some (0x2C#8, 0x64#8, 0x01#8) := by
  decide
theorem test_add_flag_wins : (after 0x8F04 (regs [(VF, 0x10#8), (0x0#4, 0x2C#8)])).map (·.reg VF) = some 0x00#8 := by
  decide
theorem test_sub_borrow : v12F 0x8125 (regs [(0x1#4, 0x05#8), (0x2#4, 0x07#8)]) = some (0xFE#8, 0x07#8, 0x00#8) := by
  decide
theorem test_sub_equal : v12F 0x8125 (regs [(0x1#4, 0x05#8), (0x2#4, 0x05#8)]) = some (0x00#8, 0x05#8, 0x01#8) := by
  decide
theorem test_subn : v12F 0x8127 (regs [(0x1#4, 0x05#8), (0x2#4, 0x07#8)]) = some (0x02#8, 0x07#8, 0x01#8) := by decide
theorem test_subn_borrow : v12F 0x8127 (regs [(0x1#4, 0x07#8), (0x2#4, 0x05#8)]) = some (0xFE#8, 0x05#8, 0x00#8) := by
  decide
theorem test_shr_VY : v12F 0x8126 (regs [(0x1#4, 0xFF#8), (0x2#4, 0x05#8)]) = some (0x02#8, 0x05#8, 0x01#8) := by decide
theorem test_shr_VX :
    v12F 0x8126 { regs [(0x1#4, 0xFF#8), (0x2#4, 0x05#8)] with params := { decidedParams with shiftSource := .vx } } =
      some (0x7F#8, 0x05#8, 0x01#8) := by decide
theorem test_shl_VY : v12F 0x812E (regs [(0x2#4, 0x81#8)]) = some (0x02#8, 0x81#8, 0x01#8) := by decide
theorem test_shl_VX :
    v12F 0x812E { regs [(0x1#4, 0x81#8)] with params := { decidedParams with shiftSource := .vx } } =
      some (0x02#8, 0x00#8, 0x01#8) := by decide
/-- Any draw under the mask 0 gives 0 (L2.3): nothing is asked of the free byte. -/
theorem test_rnd_mask_zero (s : State) (x : RegIdx) :
    (nextOf (execRnd x 0x00#8 s)).map (·.reg x) = some 0x00#8 := by
  simp [execRnd, nextOf, State.reg, State.setReg, State.advance, State.setPc]

theorem test_ldI : (after 0xA2F0 State.reset).map (·.i) = some 0x02F0#16 := by decide
theorem test_addI_no_flag :
    (after 0xF11E { regs [(0x1#4, 0x02#8), (VF, 0x33#8)] with i := 0x0FFF#16 }).map (fun t => (t.i, t.reg VF)) =
      some (0x1001#16, 0x33#8) := by decide
theorem test_addI_wraps :
    (after 0xF11E { regs [(0x1#4, 0x01#8)] with i := 0xFFFF#16 }).map (·.i) = some 0x0000#16 := by decide
theorem test_ldF : (after 0xF329 (regs [(0x3#4, 0x0F#8)])).map (·.i) = some 0x009B#16 := by decide
theorem test_ldF_refused :
    (after 0xF329 (regs [(0x3#4, 0x10#8)])).map (fun t => (t.refused, t.fault, t.pc)) =
      some (some .fontDigitOutOfRange, none, 0x200#16) := by decide
theorem test_ldB :
    (after 0xF533 { regs [(0x5#4, 0xFE#8)] with i := 0x300#16 }).map (fun t => (t.readBytes 0x300 3, t.i)) =
      some ([2#8, 5#8, 4#8], 0x300#16) := by decide
theorem test_ldB_fault :
    (after 0xF033 { State.reset with i := 0xFFE#16, pc := 0x204#16 }).map (·.fault) =
      some (some ⟨.addressOutOfRange 0x1000, 0x204#16⟩) := by decide
theorem test_store :
    (after 0xF255 { regs [(0x0#4, 1#8), (0x1#4, 2#8), (0x2#4, 3#8)] with i := 0x300#16 }).map
      (fun t => (t.readBytes 0x300 4, t.i)) = some ([1#8, 2#8, 3#8, 0#8], 0x303#16) := by decide
theorem test_store_lowest :
    (after 0xFF55 { State.reset with i := 0x1F8#16 }).map (·.fault) =
      some (some ⟨.addressOutOfRange 0x1F8, 0x200#16⟩) := by decide
theorem test_load_font :
    (after 0xF465 { State.reset with i := 0x050#16 }).map
      (fun t => ((List.range 6).map (fun k => t.reg (BitVec.ofNat 4 k)), t.i)) =
      some ([0xF0#8, 0x90#8, 0x90#8, 0x90#8, 0xF0#8, 0x00#8], 0x055#16) := by decide
theorem test_load_increment_x :
    (after 0xF265 { State.reset with i := 0x300#16, params := { decidedParams with bulkIncrement := .x } }).map (·.i) =
      some 0x302#16 := by decide

/-- The pixels set in a list of coordinates. -/
def lit (s : State) (l : List (Nat × Nat)) : List Bool := l.map fun c => pixel s.fb c.1 c.2

theorem test_cls :
    (nextOf (execCls { State.reset with fb := flipPixel State.reset.fb 5 7 })).map (fun t => t.fb) =
      some State.reset.fb := by decide
/-- A row drawn at column 60 wraps to column 0 (L2.5). -/
theorem test_drw_wraps :
    (nextOf (execDrw 0x0#4 0x1#4 0x1#4 (bytesAt 0x300 [0xFF#8] { regs [(0x0#4, 60#8)] with i := 0x300#16 }))).map
      (fun t => (lit t [(59, 0), (60, 0), (63, 0), (0, 0), (3, 0), (4, 0), (60, 1)], t.reg VF)) =
      some ([false, true, true, true, true, false, false], 0#8) := by decide
/-- L2.5: `fb[0][0]` set, sprite C0: the pixel goes off, its neighbour on, and `VF` is 1. -/
theorem test_drw_collision :
    (nextOf (execDrw 0x0#4 0x1#4 0x1#4
        (bytesAt 0x300 [0xC0#8] { State.reset with i := 0x300#16, fb := flipPixel State.reset.fb 0 0 }))).map
      (fun t => (lit t [(0, 0), (1, 0), (2, 0)], t.reg VF)) = some ([false, true, false], 1#8) := by decide

theorem test_ldFromDt : (after 0xF207 { State.reset with dt := 0x3C#8 }).map (·.reg 0x2#4) = some 0x3C#8 := by decide
theorem test_ldDt : (after 0xF215 (regs [(0x2#4, 0x3C#8)])).map (·.dt) = some 0x3C#8 := by decide
theorem test_ldSt :
    (after 0xF318 (regs [(0x3#4, 10#8)])).map (fun t => (t.st, t.beepActive)) = some (10#8, true) := by decide

/-- The reset state with one key pressed. -/
def pressed (k : RegIdx) (s : State) : State := s.setKey k true

theorem test_skp : (after 0xE49E (pressed 0x5#4 (regs [(0x4#4, 5#8)]))).map (·.pc) = some 0x204#16 := by decide
theorem test_skp_masked :
    (after 0xE49E { pressed 0x5#4 (regs [(0x4#4, 0x15#8)]) with params := { decidedParams with nibblePolicy := .mask } }).map
      (·.pc) = some 0x204#16 := by decide
theorem test_sknp : (after 0xE4A1 (pressed 0x5#4 (regs [(0x4#4, 5#8)]))).map (·.pc) = some 0x202#16 := by decide
theorem test_sknp_refused :
    (after 0xE4A1 (regs [(0x4#4, 0x10#8)])).map (fun t => (t.refused, t.ctl)) =
      some (some .keyIndexOutOfRange, .running) := by decide
theorem test_ldKey :
    (after 0xF30A State.reset).map (fun t => (t.ctl, t.pc, t.reg 0x3#4)) =
      some (.waitingForKey 0x3#4, 0x200#16, 0#8) := by decide

/-! ## The scheduler, the host and the load (L1.3, L2.7, L2.8, L2.9) -/

/-- At `T = 1/60` with the sixteen instruction slots done: the tick and the frame are due, with equal deadlines. -/
def tie : State := { State.reset with time := mkRat 1 60, nInstr := 16 }
/-- The same with the frame slot done: the tick alone is due. -/
def tickDue : State := { tie with nFrame := 1 }
/-- The same with the tick slot done: the frame alone is due. -/
def frameDue : State := { tie with nTick := 1 }

/-- A core that waits for a key into `V3`. -/
def waiting : State := { State.reset with ctl := .waitingForKey 0x3#4 }

theorem test_press_ends_wait :
    (nextOf (step { waiting with calls := [.setPressed 0x7#4 true] })).map
      (fun t => (t.ctl, t.reg 0x3#4, t.pc, t.isPressed 0x7#4)) = some (.running, 7#8, 0x202#16, true) := by decide
theorem test_held_key_does_not :
    (nextOf (step { pressed 0x7#4 waiting with calls := [.setPressed 0x7#4 true] })).map (fun t => (t.ctl, t.pc)) =
      some (.waitingForKey 0x3#4, 0x200#16) := by decide
/-- `advance_time(1/2000)` at 1000 Hz makes no slot due, `advance_time(1/1000)` makes one (L2.9). -/
theorem test_first_slot :
    (nextOf (step { State.reset with calls := [.advanceTime 1 2000] })).map (·.due .instr) = some false ∧
      (nextOf (step { State.reset with calls := [.advanceTime 1 1000] })).map (·.due .instr) = some true := by decide +kernel
/-- At `T = 1/60` sixteen instruction slots, one tick and one frame have come due (L2.9). -/
theorem test_slots_at_first_tick :
    ({ State.reset with time := mkRat 1 60 }).owed = 18 := by decide +kernel
theorem test_tick :
    (nextOf (step { State.reset with time := mkRat 1 60, nInstr := 16, nFrame := 1, dt := 255#8, st := 0#8 })).map
      (fun t => (t.dt, t.st, t.nTick)) = some (254#8, 0#8, 1) := by decide
/-- At the first frame slot with `ST = 1` the core sends both signals, in one order or the other (R289; log 29). -/
theorem test_frame_beeps :
    ({ frameDue with st := 1#8 }).frameSignals.length = 2 ∧
      Signal.audio 553 ∈ ({ frameDue with st := 1#8 }).frameSignals ∧
      Signal.frameReady State.reset.fb ∈ ({ frameDue with st := 1#8 }).frameSignals := by
  rcases State.frameSignals_cases { frameDue with st := 1#8 } with ⟨h, -⟩ | ⟨-, h | h⟩
  · exact absurd h (by decide)
  all_goals rw [h]; exact ⟨rfl, by simp [frameDue, tie, State.reset, State.fresh, defaultConfig], by simp [frameDue, tie]⟩
theorem test_halted_core_takes_time_only :
    (nextOf (step { State.reset.raise .stackUnderflow with calls := [.advanceTime 1 1] })).map
      (fun t => (t.time, t.nInstr, t.nTick, t.nFrame, t.ctl)) = some (1, 0, 0, 0, .halted) := by decide +kernel
theorem test_load_one_byte :
    (boot decidedParams goodRequest [0xAB#8]).map (fun s => (s.readBytes 0x200 2, s.pc, s.ctl)) =
      some ([0xAB#8, 0x00#8], 0x200#16, .running) := by decide
theorem test_load_too_large :
    (boot { decidedParams with loadOffset := 4093 } goodRequest [1#8, 2#8, 3#8, 4#8]).map (fun s => (s.ctl, s.fault)) =
      some (.halted, some ⟨.programTooLarge 4, 4093#16⟩) := by decide

/-! ## Witnesses: for each obligation with hypotheses, states and operands that meet all of them together -/

/-- What the scheduler picks, without the tie counter's state. -/
def picked (s : State) : Option Stream := s.pick.map (·.1)

/-- When one stream alone is soonest, it is picked and the state is as it was. -/
theorem pick_single (s : State) (a : Stream) (h : s.soonest = [a]) : s.pick = some (a, s) := by
  unfold State.pick; rw [h]

/-- The reset state about to run the word `w` in its first instruction slot. -/
def ready (w : Nat) : State := State.reset.withFetchWord 16 w

theorem witness_EncodeOfDecode : decode 0xD015#16 = .ok (.drw 0x0#4 0x1#4 0x5#4) := by decide

theorem witness_UnknownWords : decode 0x0000#16 = .error (.unknownOpcode 0x0000#16) := by decide

theorem witness_StepRuns :
    (ready 0x6A42).stopped = false ∧ (ready 0x6A42).pick = some (.instr, ready 0x6A42) ∧
      (ready 0x6A42).ctl = .running ∧ (ready 0x6A42).pc.toNat % 2 = 0 ∧ (ready 0x6A42).pc.toNat ≤ 4094 ∧
      decode (wordOfBytes ((ready 0x6A42).readByte (ready 0x6A42).pc.toNat)
        ((ready 0x6A42).readByte ((ready 0x6A42).pc.toNat + 1))) = .ok (.ldImm 0xA#4 0x42#8) ∧
      (ready 0x6A42).uninitialised (.ldImm 0xA#4 0x42#8) = false ∧
      exec (.ldImm 0xA#4 0x42#8) { ready 0x6A42 with nInstr := 1 } =
        .next (({ ready 0x6A42 with nInstr := 1 } : State).setReg 0xA#4 0x42#8).advance :=
  ⟨by decide, pick_single _ _ (by decide), by decide, by decide, by decide, by decide, by decide, rfl⟩

/-- The reset state with the program counter at `a` and its instruction slot due. -/
def readyAt (a : Half) : State := ({ State.reset with pc := a }).instrSlotNext

theorem witness_FetchHalts_odd :
    (readyAt 0x201#16).stopped = false ∧ (readyAt 0x201#16).pick = some (.instr, readyAt 0x201#16) ∧
      (readyAt 0x201#16).ctl = .running ∧ (readyAt 0x201#16).pc.toNat % 2 = 1 :=
  ⟨by decide, pick_single _ _ (by decide), by decide, by decide⟩
theorem witness_FetchHalts_above :
    (readyAt 0x1000#16).stopped = false ∧ (readyAt 0x1000#16).pick = some (.instr, readyAt 0x1000#16) ∧
      (readyAt 0x1000#16).ctl = .running ∧ (readyAt 0x1000#16).pc.toNat > 4094 :=
  ⟨by decide, pick_single _ _ (by decide), by decide, by decide⟩

theorem witness_UnknownWordHalts :
    (readyAt 0xFFE#16).stopped = false ∧ (readyAt 0xFFE#16).pick = some (.instr, readyAt 0xFFE#16) ∧
      (readyAt 0xFFE#16).ctl = .running ∧ (readyAt 0xFFE#16).pc.toNat % 2 = 0 ∧ (readyAt 0xFFE#16).pc.toNat ≤ 4094 ∧
      0x0000#16 = wordOfBytes ((readyAt 0xFFE#16).readByte (readyAt 0xFFE#16).pc.toNat)
        ((readyAt 0xFFE#16).readByte ((readyAt 0xFFE#16).pc.toNat + 1)) ∧
      ∀ i, decode 0x0000#16 ≠ .ok i :=
  ⟨by decide, pick_single _ _ (by decide), by decide, by decide, by decide, by decide, fun i h => by
    rw [show decode 0x0000#16 = .error (.unknownOpcode 0x0000#16) by decide] at h; cases h⟩

theorem witness_Uninitialised_zero : State.reset.params.uninit = .zero := rfl

/-- A core under `UNINIT_POLICY = refuse` whose program is the word `w`, before its first step. -/
def readyUninit (w : Nat) : State :=
  ({ State.reset with params := { decidedParams with uninit := .refuse } }).withFetchWord 16 w
/-- The hypotheses of a step of `i` under `UNINIT_POLICY = refuse`. -/
def StepsUninit (s : State) (i : Instr) : Prop :=
  s.stopped = false ∧ s.pick = some (.instr, s) ∧ s.ctl = .running ∧ s.pc.toNat % 2 = 0 ∧ s.pc.toNat ≤ 4094 ∧
    decode (wordOfBytes (s.readByte s.pc.toNat) (s.readByte (s.pc.toNat + 1))) = .ok i ∧ s.params.uninit = .refuse
/-- 7102 reads `V1`, which nothing has written. -/
theorem witness_Uninitialised_v :
    StepsUninit (readyUninit 0x7102) (.addImm 0x1#4 0x02#8) ∧
      (readyUninit 0x7102).ReadsNeverWritten (.addImm 0x1#4 0x02#8) :=
  ⟨⟨by decide, pick_single _ _ (by decide), by decide, by decide, by decide, by decide, by decide⟩,
    (State.readsUnwritten_iff _ _).1 (by decide)⟩
/-- F065 reads `I`, which nothing has written. -/
theorem witness_Uninitialised_i :
    StepsUninit (readyUninit 0xF065) (.load 0x0#4) ∧ readsI (.load 0x0#4) = true ∧
      (readyUninit 0xF065).written.i = false :=
  ⟨⟨by decide, pick_single _ _ (by decide), by decide, by decide, by decide, by decide, by decide⟩, rfl, rfl⟩
/-- F307 reads `DT`, which nothing has written. -/
theorem witness_Uninitialised_dt :
    StepsUninit (readyUninit 0xF307) (.ldFromDt 0x3#4) ∧ readsDt (.ldFromDt 0x3#4) = true ∧
      (readyUninit 0xF307).written.dt = false :=
  ⟨⟨by decide, pick_single _ _ (by decide), by decide, by decide, by decide, by decide, by decide⟩, rfl, rfl⟩
/-- F065 with `I = 0x300` written reads the byte there, which nothing has written. -/
def readyByte : State :=
  { (readyUninit 0xF065) with i := 0x300#16, written := { (readyUninit 0xF065).written with i := true } }
theorem witness_Uninitialised_byte :
    StepsUninit readyByte (.load 0x0#4) ∧ 0 < readsAtI (.load 0x0#4) ∧ readyByte.NeverWritten (0x300 + 0) :=
  ⟨⟨by decide, pick_single _ _ (by decide), by decide, by decide, by decide, by decide, by decide⟩, by decide,
    (State.byteUnwritten_iff _ _).1 (by decide)⟩
/-- 6A42 reads nothing unwritten: the step completes and `VA` is written. -/
theorem witness_Uninitialised_none :
    StepsUninit (readyUninit 0x6A42) (.ldImm 0xA#4 0x42#8) ∧
      ¬ (readyUninit 0x6A42).ReadsNeverWritten (.ldImm 0xA#4 0x42#8) ∧
      (nextOf (step (readyUninit 0x6A42))).map (fun t => (t.stopped, t.written.v[0xA]?)) = some (false, some true) :=
  ⟨⟨by decide, pick_single _ _ (by decide), by decide, by decide, by decide, by decide, by decide⟩,
    fun h => absurd ((State.readsUnwritten_iff _ _).2 h) (by decide), by decide⟩

theorem witness_PickedSlot :
    tie.config.legal ∧ tie.soonest = [.tick, .frame] ∧ tickDue.pick = some (.tick, tickDue) ∧
      tie.pick.map (fun p => p.2.ties) = some 1 :=
  ⟨by decide, by decide, pick_single _ _ (by decide), by rfl⟩
theorem witness_PickedSlot_due : tickDue.deadline .tick ≤ tickDue.time := by decide +kernel
theorem witness_Tick : tickDue.stopped = false ∧ tickDue.pick = some (.tick, tickDue) :=
  ⟨by decide, pick_single _ _ (by decide)⟩
theorem witness_Frame_silent :
    frameDue.stopped = false ∧ frameDue.pick = some (.frame, frameDue) ∧ frameDue.st.toNat = 0 :=
  ⟨by decide, pick_single _ _ (by decide), by decide⟩
theorem witness_Frame_beeping :
    ({ frameDue with st := 1#8 }).stopped = false ∧
      ({ frameDue with st := 1#8 }).pick = some (.frame, { frameDue with st := 1#8 }) ∧
      ({ frameDue with st := 1#8 }).st.toNat ≠ 0 :=
  ⟨by decide, pick_single _ _ (by decide), by decide⟩

/-- A waiting core whose next instruction slot is due. -/
def waitingDue : State := { waiting with time := mkRat 1 1000 }
theorem witness_Waiting :
    waitingDue.stopped = false ∧ waitingDue.ctl = .waitingForKey 0x3#4 ∧ waitingDue.pick = some (.instr, waitingDue) :=
  ⟨by decide, by decide, pick_single _ _ (by decide)⟩

/-- The reset state has nothing due. -/
theorem witness_Quiet (calls : List HostCall) : ({ State.reset with calls := calls }).Quiet :=
  .inr fun a => by cases a <;> rfl
theorem witness_HostAdvances :
    ({ State.reset with calls := [.advanceTime 1 3] }).calls = .advanceTime 1 3 :: [] ∧
      ({ State.reset with calls := [.advanceTime 1 3] }).Quiet :=
  ⟨rfl, witness_Quiet _⟩

/-- A waiting core whose host sends one key event. -/
def waitingFor (c : HostCall) : State := { waiting with calls := [c] }
theorem waitingFor_quiet (c : HostCall) : (waitingFor c).Quiet := .inr fun a => by cases a <;> rfl
theorem witness_QualifyingPress :
    (waitingFor (.setPressed 0x7#4 true)).calls = [.setPressed 0x7#4 true] ∧
      (waitingFor (.setPressed 0x7#4 true)).Quiet ∧
      (waitingFor (.setPressed 0x7#4 true)).ctl = .waitingForKey 0x3#4 ∧
      (waitingFor (.setPressed 0x7#4 true)).isPressed 0x7#4 = false :=
  ⟨rfl, waitingFor_quiet _, rfl, by decide⟩
theorem witness_OtherKeyEvents_release :
    (waitingFor (.setPressed 0x2#4 false)).calls = [.setPressed 0x2#4 false] ∧
      (waitingFor (.setPressed 0x2#4 false)).Quiet ∧
      ∀ x, (waitingFor (.setPressed 0x2#4 false)).ctl = .waitingForKey x → false = true →
        (waitingFor (.setPressed 0x2#4 false)).isPressed 0x2#4 = true :=
  ⟨rfl, waitingFor_quiet _, fun _ _ h => by cases h⟩
theorem witness_OtherKeyEvents_held :
    (pressed 0x7#4 (waitingFor (.setPressed 0x7#4 true))).Quiet ∧
      (pressed 0x7#4 (waitingFor (.setPressed 0x7#4 true))).calls = [.setPressed 0x7#4 true] ∧
      ∀ x, (pressed 0x7#4 (waitingFor (.setPressed 0x7#4 true))).ctl = .waitingForKey x → true = true →
        (pressed 0x7#4 (waitingFor (.setPressed 0x7#4 true))).isPressed 0x7#4 = true :=
  ⟨.inr fun a => by cases a <;> rfl, rfl, fun _ _ _ => by decide⟩

/-- A halted and a refused core, each with one call of its host to come. -/
def haltedCore : State := { State.reset.raise .stackUnderflow with calls := [.setPressed 0x1#4 true] }
def refusedCore : State := { State.reset.refuse .zeroHeightSprite with calls := [.advanceTime 1 1] }
theorem witness_Stopped_halted :
    haltedCore.Wf ∧ haltedCore.stopped = true ∧ (nextOf (step haltedCore)).isSome = true := by decide +kernel
theorem witness_Stopped_refused :
    refusedCore.Wf ∧ refusedCore.stopped = true ∧ (nextOf (step refusedCore)).isSome = true := by decide +kernel
theorem witness_StepStops_fault :
    step { haltedCore with calls := [] } = .fault (.halted (some ⟨.stackUnderflow, 0x200#16⟩)) := by rfl
theorem witness_StepStops_refused :
    step { refusedCore with calls := [] } = .refused (.noMeaning .zeroHeightSprite) := by rfl

theorem reset_wf : State.reset.Wf := by decide +kernel
theorem witness_QuietCounters : State.reset.Wf ∧ ∀ a : Stream, State.reset.due a = false :=
  ⟨reset_wf, fun a => by cases a <;> rfl⟩
/-- Two owed slots of the loop 1200 are processed in two steps, and the counter is `floor(T * R)`. -/
theorem witness_DueSlots_all :
    let s := { (ready 0x1200) with time := mkRat 1 500 }
    s.Wf ∧ s.owed = 2 ∧ (nextOf (Host.Core.run Sys2Proof.core 2 s)).map
      (fun t => (t.stopped, t.nInstr, t.slotsUpTo .instr, t.slotsUpTo .tick)) = some (false, 2, 2, 0) := by
  decide +kernel
/-- A state of the invariant with eighteen slots owed. -/
theorem witness_DueSlots :
    ({ State.reset with time := mkRat 1 60 }).Wf ∧ ({ State.reset with time := mkRat 1 60 }).owed = 18 := by
  decide +kernel

/-- The core of the tight loop 1200, as a host boots it (L2.9). -/
def loopCore : State := (State.fresh decidedParams defaultConfig).load [0x12#8, 0x00#8]
theorem witness_SlotCounts_boot :
    decidedParams.legal ∧ boot decidedParams { goodRequest with gradientColoring := false } [0x12#8, 0x00#8] =
      some loopCore := ⟨by decide, by decide +kernel⟩
/-- After `advance_time(1/500)` it runs its two slots and nothing is left to do. -/
theorem witness_SlotCounts_run :
    (nextOf (Host.Core.run Sys2Proof.core 3 { loopCore with calls := [.advanceTime 1 500] })).map
      (fun t => (t.stopped, t.calls, t.due .instr, t.due .tick, t.due .frame, t.nInstr)) =
      some (false, [], false, false, false, 2) := by decide +kernel

theorem witness_StepKeeps :
    tickDue.Wf ∧ (nextOf (step tickDue)).isSome = true ∧ (ready 0x6A42).Wf ∧
      (nextOf (step (ready 0x6A42))).isSome = true := by decide +kernel
theorem witness_StepKeepsSignals : ({ frameDue with nFrame := 0 }).Wf ∧ ({ frameDue with nFrame := 0 }).SignalsAgree :=
  ⟨by decide +kernel, rfl, rfl⟩
theorem witness_Protected :
    (ready 0xF055).params.protectLow = true ∧ (nextOf (step (ready 0xF055))).isSome = true := by decide
theorem witness_Protected_intact : (ready 0x6A42).LowIntact := by
  intro a ha
  have e : (ready 0x6A42).mem = [(0x200, 0x6A#8), (0x201, 0x42#8)] := by rfl
  have ha : a < 0x200 := ha
  have h1 : ¬ 0x200 = a := by omega
  have h2 : ¬ 0x201 = a := by omega
  simp only [State.readByte, e, lookup, if_neg h1, if_neg h2]
  rfl

theorem witness_FaultingChangesNothing :
    State.reset.fault = none ∧ State.reset.refused = none ∧
      (nextOf (exec .ret State.reset)).map (·.fault.isSome) = some true ∧
      (nextOf (exec (.drw 0x0#4 0x1#4 0x0#4) State.reset)).map (·.refused.isSome) = some true := by decide
theorem witness_IgnoresTheClock : exec .cls State.reset = .next (State.reset.setFb clearedFb).advance := rfl
theorem witness_OthersAdvance :
    sequential .cls = true ∧ State.reset.fault = none ∧ State.reset.refused = none ∧
      exec .cls State.reset = .next (State.reset.setFb clearedFb).advance ∧
      ((State.reset.setFb clearedFb).advance).fault = none ∧ ((State.reset.setFb clearedFb).advance).refused = none :=
  ⟨rfl, rfl, rfl, rfl, rfl, rfl⟩
theorem witness_FaultsComeOnly_underflow :
    State.reset.sp.toNat ≤ 16 ∧ State.reset.fault = none ∧
      (nextOf (exec .ret State.reset)).map (·.fault) = some (some ⟨.stackUnderflow, 0x200#16⟩) := by decide
theorem witness_FaultsComeOnly_address :
    (nextOf (exec (.ldB 0x0#4) { State.reset with i := 0x1FE#16 })).map (·.fault) =
      some (some ⟨.addressOutOfRange 0x1FE, 0x200#16⟩) := by decide
theorem witness_OnlyListed :
    exec (.ldImm 0x1#4 0x42#8) State.reset = .next (State.reset.setReg 0x1#4 0x42#8).advance ∧
      VF ∉ writesV State.reset.params (.ldImm 0x1#4 0x42#8) := ⟨rfl, by decide⟩
theorem witness_Unread :
    0x1#4 ∉ readsV State.reset.params (.ldReg 0x1#4 0x2#4) ∧
      exec (.ldReg 0x1#4 0x2#4) State.reset = .next (State.reset.setReg 0x1#4 0x00#8).advance ∧
      exec (.ldReg 0x1#4 0x2#4) (State.reset.setReg 0x1#4 0x55#8) =
        .next ((State.reset.setReg 0x1#4 0x55#8).setReg 0x1#4 0x00#8).advance ∧
      0x1#4 ∈ writesV State.reset.params (.ldReg 0x1#4 0x2#4) ∧
      ((State.reset.setReg 0x1#4 0x00#8).advance).pc ≠ State.reset.pc :=
  ⟨by decide, rfl, rfl, by decide, by decide⟩

theorem witness_Ret_empty : State.reset.sp.toNat = 0 := by decide
theorem witness_Ret_bounds :
    (0 < ({ State.reset with sp := 1#8 }).sp.toNat ∧ ({ State.reset with sp := 1#8 }).sp.toNat ≤ 16) ∧
      (0 < ({ State.reset with sp := 16#8 }).sp.toNat ∧ ({ State.reset with sp := 16#8 }).sp.toNat ≤ 16) := by decide
theorem witness_Call_bounds :
    ({ State.reset with sp := 16#8 }).sp.toNat = 16 ∧ ({ State.reset with sp := 15#8 }).sp.toNat < 16 ∧
      State.reset.sp.toNat < 16 := by decide
theorem witness_RetUndoesCall :
    ({ State.reset with sp := 15#8 }).sp.toNat < 16 ∧
      (nextOf (exec (.call 0x300#12) { State.reset with sp := 15#8 })).isSome = true := by decide

theorem witness_Logic (x y : RegIdx) :
    (Instr.xorReg x y = .orReg x y ∧ xor = or) ∨ (Instr.xorReg x y = .andReg x y ∧ xor = and) ∨
      (Instr.xorReg x y = .xorReg x y ∧ xor = xor) := .inr (.inr ⟨rfl, rfl⟩)
theorem witness_Logic_policies :
    State.reset.params.logicClearsVF = false ∧
      ({ State.reset with params := { decidedParams with logicClearsVF := true } }).params.logicClearsVF = true := by
  decide
theorem witness_Shifts :
    (State.reset.params.shiftSource = .vy ∧ 5 = ((regs [(0x2#4, 5#8)]).reg 0x2#4).toNat) ∧
      (({ State.reset with params := { decidedParams with shiftSource := .vx } }).params.shiftSource = .vx ∧
        255 = ((regs [(0x1#4, 255#8)]).reg 0x1#4).toNat) := by decide

theorem witness_Glyph :
    State.reset.params.legal ∧ ((regs [(0x3#4, 0x0F#8)]).reg 0x3#4).toNat ≤ 0xF ∧
      ((regs [(0x3#4, 0x10#8)]).reg 0x3#4).toNat > 0xF ∧ State.reset.params.nibblePolicy = .refuse := by decide
theorem witness_Glyph_mask :
    ({ regs [(0x3#4, 0xFF#8)] with params := { decidedParams with nibblePolicy := .mask } }).params.nibblePolicy = .mask ∧
      ({ decidedParams with nibblePolicy := .mask }).legal := by decide
theorem witness_KeySkips :
    ((regs [(0x4#4, 0x0F#8)]).reg 0x4#4).toNat ≤ 0xF ∧ ((regs [(0x4#4, 0x10#8)]).reg 0x4#4).toNat > 0xF ∧
      (regs [(0x4#4, 0x10#8)]).params.nibblePolicy = .refuse := by decide

/-- At and above `LOAD_OFFSET`, and up to 4095, no write fails. -/
theorem writes_ok (a : Nat) (h1 : 0x200 ≤ a) (h2 : a ≤ 4095) : ¬ WriteFails decidedParams a := by
  rintro (h | ⟨-, h⟩)
  · omega
  · have : a < 0x200 := h
    omega
theorem witness_Bcd :
    Memory.wf decidedParams [] ∧ (∀ k, k < 3 → ¬ WriteFails decidedParams (0x200 + k)) ∧
      (∀ k, k < 3 → ¬ WriteFails decidedParams (0xFFD + k)) :=
  ⟨by decide, fun k h => writes_ok _ (by omega) (by omega), fun k h => writes_ok _ (by omega) (by omega)⟩
theorem witness_BulkStore :
    Memory.wf decidedParams [] ∧ (∀ k, k ≤ 15 → ¬ WriteFails decidedParams (0x200 + k)) ∧
      (∀ k, k ≤ 15 → ¬ WriteFails decidedParams (0xFF0 + k)) :=
  ⟨by decide, fun k h => writes_ok _ (by omega) (by omega), fun k h => writes_ok _ (by omega) (by omega)⟩
theorem witness_BulkLoad :
    ({ State.reset with i := 0xFF0#16 }).i.toNat + (0xF#4 : RegIdx).toNat ≤ 4095 ∧
      ({ State.reset with i := 0xFFF#16 }).i.toNat + (0x0#4 : RegIdx).toNat ≤ 4095 := by decide
/-- FX33 at 0xFFE fails at 0x1000 first. -/
theorem witness_LowestFailing_top : LowestFailing (WriteFails decidedParams) 0xFFE 3 0x1000 :=
  ⟨by omega, by omega, .inl (by omega), fun b h1 h2 => writes_ok b (by omega) (by omega)⟩
/-- FF55 at 0x1F8 fails at 0x1F8 first (L2.8). -/
theorem witness_LowestFailing_protected : LowestFailing (WriteFails decidedParams) 0x1F8 16 0x1F8 :=
  ⟨by omega, by omega, .inr ⟨rfl, by decide⟩, fun b h1 h2 => by omega⟩
/-- F165 and D012 at 0xFFF fail at 0x1000 first. -/
theorem witness_LowestFailing_read : LowestFailing (· > 4095) 0xFFF 2 0x1000 :=
  ⟨by omega, by omega, by decide, fun b h1 h2 => by omega⟩
theorem witness_LowestFailing_rows : (0x2#4 : BitVec 4) ≠ 0x0#4 ∧ (0x2#4 : BitVec 4).toNat = 2 := by decide

theorem witness_Draw :
    (0xF#4 : BitVec 4) ≠ 0x0#4 ∧ ({ State.reset with i := 0xFF1#16 }).i.toNat + (0xF#4 : BitVec 4).toNat ≤ 4096 := by
  decide
theorem witness_ZeroHeight :
    State.reset.params.zeroHeight = .refuse ∧
      ({ State.reset with params := { decidedParams with zeroHeight := .noRows } }).params.zeroHeight = .noRows := by
  decide
theorem witness_DrawingTwice :
    (List.replicate 15 0x01#8).length ≤ 15 ∧ (∃ b ∈ List.replicate 15 0x01#8, b ≠ 0x00#8) ∧
      ∀ px py, pixel clearedFb px py = false :=
  ⟨by decide, ⟨0x01#8, by decide, by decide⟩, fun px py => by simp [pixel, clearedFb]⟩
/-- D011 with `I = 0x050`: the first row of the glyph 0 at the corner, the coordinates `V0` and `V1` unchanged. -/
theorem witness_DrawingTwice_steps :
    (0x1#4 : BitVec 4) ≠ 0x0#4 ∧ ({ State.reset with i := 0x050#16 }).i.toNat + (0x1#4 : BitVec 4).toNat ≤ 4096 ∧
      (nextOf (exec (.drw 0x0#4 0x1#4 0x1#4) { State.reset with i := 0x050#16 })).map
        (fun t => (t.reg 0x0#4, t.reg 0x1#4, t.reg VF)) = some (0#8, 0#8, 0#8) := by decide
/-- On a framebuffer whose pixel is set, the second draw of it does not collide: R227's last clause fails (log 28). -/
theorem test_second_draw_without_collision :
    (drawSprite 0 0 [0x80#8] (drawSprite 0 0 [0x80#8] (flipPixel clearedFb 0 0)).2).1 = false := by decide

theorem witness_ResetValues :
    decidedParams.legal ∧ goodRequest.legal = true ∧
      (List.replicate 3584 0xAB#8).length ≤ 4096 - decidedParams.loadOffset :=
  ⟨by decide, by decide, by rw [List.length_replicate]; decide⟩
theorem witness_TooLarge : 4096 - decidedParams.loadOffset < (List.replicate 3585 0xAB#8).length := by
  rw [List.length_replicate]; decide

end Sys2Proof.Tests
end

/-! PROOFS. The frame rules: what each update of the state leaves alone, and, said once for every instruction, the ways
its meaning can end (10_state R21 to R36, 60_exceptions R276, R279). -/

namespace Sys2Proof.Machine

/-! ## Frame rules: one per update of the state -/

section FrameRules

variable {w : Touched} {s t : State}

theorem Frame.refl (w : Touched) (s : State) : Frame w s s := by
  simp [Frame]

theorem Frame.setPc (h : Frame w s t) (a : Half) : Frame w s (t.setPc a) := h

theorem Frame.advance (h : Frame w s t) : Frame w s t.advance := h

theorem Frame.skipIf (h : Frame w s t) (c : Bool) : Frame w s (t.skipIf c) := h

theorem Frame.setReg (h : Frame w s t) {r : RegIdx} (hr : r ∈ w.regs) (b : Byte) : Frame w s (t.setReg r b) := by
  obtain ⟨hregs, hrest⟩ := h
  refine ⟨fun q hq => ?_, hrest⟩
  have hne : q ≠ r := fun e => hq (e ▸ hr)
  rw [State.reg_setReg, if_neg hne, hregs q hq]

theorem Frame.setRegFlag (h : Frame w s t) {x : RegIdx} (hx : x ∈ w.regs) (hf : VF ∈ w.regs) (b f : Byte) :
    Frame w s (t.setRegFlag x b f) := (h.setReg hx b).setReg hf f

theorem Frame.setRegLogic (h : Frame w s t) {x : RegIdx} (hx : x ∈ w.regs)
    (hf : t.params.logicClearsVF = true → VF ∈ w.regs) (b : Byte) : Frame w s (t.setRegLogic x b) := by
  unfold State.setRegLogic
  split
  next hc => exact h.setRegFlag hx (hf hc) b 0x00#8
  next => exact h.setReg hx b

theorem Frame.setRegs (h : Frame w s t) (k : Nat) (bs : List Byte)
    (hbs : ∀ j, k ≤ j → j < k + bs.length → BitVec.ofNat 4 j ∈ w.regs) : Frame w s (t.setRegs k bs) := by
  induction bs generalizing t k with
  | nil => exact h
  | cons b bs ih =>
    rw [List.length_cons] at hbs
    exact ih (h.setReg (hbs k (le_refl k) (by omega)) b) (k + 1) fun j hj hlt => hbs j (by omega) (by omega)

theorem Frame.setI (h : Frame w s t) {a : Half} (ha : w.i = true ∨ a = s.i) : Frame w s (t.setI a) := by
  obtain ⟨hregs, -, hrest⟩ := h
  exact ⟨hregs, ha, hrest⟩

theorem Frame.setStack (h : Frame w s t) (hw : w.stack = true) (e : Vector Half 16) (p : Byte) :
    Frame w s (t.setStack e p) := by
  obtain ⟨hregs, hi, -, hrest⟩ := h
  exact ⟨hregs, hi, .inl hw, hrest⟩

theorem Frame.setDelay (h : Frame w s t) (hw : w.dt = true) (b : Byte) : Frame w s (t.setDelay b) := by
  obtain ⟨hregs, hi, hstack, -, hrest⟩ := h
  exact ⟨hregs, hi, hstack, .inl hw, hrest⟩

theorem Frame.setSound (h : Frame w s t) (hw : w.st = true) (b : Byte) : Frame w s (t.setSound b) := by
  obtain ⟨hregs, hi, hstack, hdt, -, hrest⟩ := h
  exact ⟨hregs, hi, hstack, hdt, .inl hw, hrest⟩

theorem Frame.setFb (h : Frame w s t) (hw : w.fb = true) (fb : Framebuffer) : Frame w s (t.setFb fb) := by
  obtain ⟨hregs, hi, hstack, hdt, hst, -, hrest⟩ := h
  exact ⟨hregs, hi, hstack, hdt, hst, .inl hw, hrest⟩

theorem Frame.awaitKey (h : Frame w s t) (hw : w.ctl = true) (x : RegIdx) : Frame w s (t.awaitKey x) := by
  obtain ⟨hregs, hi, hstack, hdt, hst, hfb, -, hrest⟩ := h
  exact ⟨hregs, hi, hstack, hdt, hst, hfb, .inl hw, hrest⟩

theorem Frame.draw (h : Frame w s t) (hw : w.draws = true) : Frame w s t.draw.2 := by
  obtain ⟨hregs, hi, hstack, hdt, hst, hfb, hctl, -, hrest⟩ := h
  exact ⟨hregs, hi, hstack, hdt, hst, hfb, hctl, .inl hw, hrest⟩

/-- The bytes stored lie among those that `w` names. -/
theorem Frame.writeBytes (h : Frame w s t) (bs : List Byte) (hbs : bs.length ≤ w.bytes) :
    Frame w s (t.writeBytes w.base bs) := by
  have hmem : ∀ a, ¬ (w.base ≤ a ∧ a < w.base + w.bytes) →
      (t.writeBytes w.base bs).readByte a = t.readByte a := fun a ha =>
    State.readByte_writeBytes_out t w.base a bs fun ⟨h1, h2⟩ => ha ⟨h1, by omega⟩
  obtain ⟨hregs, hi, hstack, hdt, hst, hfb, hctl, hdraws, hbytes, hrest⟩ := h
  rw [State.writeBytes_eq] at hmem ⊢
  exact ⟨hregs, hi, hstack, hdt, hst, hfb, hctl, hdraws, fun a ha => (hmem a ha).trans (hbytes a ha), hrest⟩

/-! What every frame keeps, whatever `w` names. -/

theorem Frame.fault_eq (h : Frame w s t) : t.fault = s.fault := by
  obtain ⟨-, -, -, -, -, -, -, -, -, -, e, -⟩ := h
  exact e

theorem Frame.refused_eq (h : Frame w s t) : t.refused = s.refused := by
  obtain ⟨-, -, -, -, -, -, -, -, -, -, -, e, -⟩ := h
  exact e

/-- The configuration and the parameters (R37, R46). -/
theorem Frame.setup_eq (h : Frame w s t) : t.config = s.config ∧ t.params = s.params := by
  obtain ⟨-, -, -, -, -, -, -, -, -, -, -, -, ecfg, epar, -⟩ := h
  exact ⟨ecfg, epar⟩

/-- The time and the slot counters (R41). -/
theorem Frame.clock_eq (h : Frame w s t) : t.time = s.time ∧ ∀ a, t.done a = s.done a := by
  obtain ⟨-, -, -, -, -, -, -, -, -, -, -, -, -, -, etime, einstr, etick, eframe, -⟩ := h
  refine ⟨etime, fun a => ?_⟩
  cases a with
  | instr => exact einstr
  | tick => exact etick
  | frame => exact eframe

theorem Frame.written_eq (h : Frame w s t) : t.written = s.written := by
  obtain ⟨-, -, -, -, -, -, -, -, -, -, -, -, -, -, -, -, -, -, -, -, -, e⟩ := h
  exact e

end FrameRules

/-! ## How an instruction can end -/

/-- The registers `V0` to `V[X]` by number. -/
theorem mem_regsUpTo (x r : RegIdx) : r ∈ regsUpTo x ↔ r.toNat ≤ x.toNat := by
  simp only [regsUpTo, List.mem_map, List.mem_range]
  constructor
  · rintro ⟨k, hk, rfl⟩
    have := x.isLt
    rw [BitVec.toNat_ofNat, Nat.mod_eq_of_lt (by omega)]
    omega
  · intro h
    exact ⟨r.toNat, by omega, by simp⟩

/-- A pop either finds the stack empty or takes one entry off (R32). -/
theorem State.pop_cases (s : State) :
    s.pop = none ∨ s.sp ≠ 0x00#8 ∧ ∃ a, s.pop = some (a, s.setStack s.stack (s.sp - 1#8)) := by
  by_cases h : s.sp = 0x00#8
  · exact .inl (s.pop_none h)
  · exact .inr ⟨h, _, if_neg h⟩

/-- A push either finds the stack full or puts one entry on (R31). -/
theorem State.push_cases (s : State) (a : Half) :
    s.push a = none ∨ s.sp.toNat < 16 ∧ ∃ e, s.push a = some (s.setStack e (s.sp + 1#8)) := by
  by_cases h : s.sp.toNat < 16
  · exact .inr ⟨h, _, s.push_some a h⟩
  · exact .inl (s.push_none a (by omega))

/-- What instruction `i`, run from `s`, may change when it completes: R21 for the registers, R28 for `I`, R29 for the
stack, R33 for the timers, R34 for the framebuffer, R61 for memory. -/
def touched (s : State) (i : Instr) : Touched where
  regs := writesV s.params i
  i := writesI s.params i
  stack := i matches .ret | .call _
  dt := writesDt i
  st := i matches .ldSt _
  fb := i matches .cls | .drw _ _ _
  ctl := i matches .ldKey _
  draws := i matches .rnd _ _
  base := s.i.toNat
  bytes := writesAtI i

/-- Instruction `i`, run from `s`, has completed in `t`: it changed what it may, and kept what the invariant of the core
says of memory, of `SP` and of `STATE`. -/
structure Completes (i : Instr) (s t : State) : Prop where
  frame : Frame (touched s i) s t
  pc : sequential i = true → t.pc = s.pcNext := by exact fun _ => rfl
  memory : Memory.wf s.params s.mem → Memory.wf t.params t.mem := by exact id
  stack : s.sp.toNat ≤ 16 → t.sp.toNat ≤ 16 := by exact id
  halt : t.ctl = .halted → s.ctl = .halted := by exact id

/-- The three ways the meaning of an instruction can end: it completes, it enters a fault, or it is refused for the sake
of an operand. -/
inductive Ends (i : Instr) (s t : State) : Prop where
  | completes (h : Completes i s t)
  | faults (c : FaultCause) (h : t = s.raise c)
  | refuses (r : RefuseReason) (hr : r ≠ .uninitialisedRead) (h : t = s.refuse r)

/-- A checked access ends as its effect does, or in the fault of the failing address (R72). -/
theorem Ends.checked {i : Instr} {s t : State} {bad : Option Nat} (h : bad = none → Completes i s t) :
    Ends i s (s.checked bad t) := by
  rcases s.checked_cases t bad with ⟨hbad, e⟩ | ⟨a, -, e⟩ <;> rw [e]
  · exact .completes (h hbad)
  · exact .faults _ rfl

/-- RET completes or underflows (R121). -/
theorem execRet_ends (s : State) : ∃ t, execRet s = .next t ∧ Ends .ret s t := by
  unfold execRet
  rcases s.pop_cases with e | ⟨hsp, a, e⟩ <;> rw [e]
  · exact ⟨_, rfl, .faults _ rfl⟩
  · exact ⟨_, rfl, .completes
      { frame := ((Frame.refl _ s).setStack rfl _ _).setPc a
        pc := fun h => nomatch h
        stack := fun (h : s.sp.toNat ≤ 16) => show (s.sp - 1#8).toNat ≤ 16 by bv_omega }⟩

/-- CALL completes or overflows (R123). -/
theorem execCall_ends (nnn : Addr12) (s : State) : ∃ t, execCall nnn s = .next t ∧ Ends (.call nnn) s t := by
  unfold execCall
  rcases s.push_cases s.pcNext with e | ⟨hsp, a, e⟩ <;> rw [e]
  · exact ⟨_, rfl, .faults _ rfl⟩
  · exact ⟨_, rfl, .completes
      { frame := ((Frame.refl _ s).setStack rfl _ _).setPc _
        pc := fun h => nomatch h
        stack := fun _ => show (s.sp + 1#8).toNat ≤ 16 by bv_omega }⟩

/-- A result with its flag completes an instruction that writes both (R151). -/
theorem Completes.setRegFlag {i : Instr} (s : State) {x : RegIdx} (hi : writesV s.params i = [x, VF]) (b f : Byte) :
    Completes i s (s.setRegFlag x b f).advance where
  frame := ((Frame.refl _ s).setRegFlag (by simp [touched, hi]) (by simp [touched, hi]) b f).advance

/-- A logic result completes an instruction that writes as `LOGIC_CLEARS_VF` says (R155 to R157). -/
theorem Completes.setRegLogic {i : Instr} (s : State) {x : RegIdx}
    (hi : writesV s.params i = if s.params.logicClearsVF then [x, VF] else [x]) (b : Byte) :
    Completes i s (s.setRegLogic x b).advance := by
  have hx : x ∈ (touched s i).regs := by simp only [touched, hi]; split <;> simp
  have hf : s.params.logicClearsVF = true → VF ∈ (touched s i).regs := by intro h; simp [touched, hi, h]
  have hframe := (Frame.refl (touched s i) s).setRegLogic hx hf b
  rw [s.setRegLogic_eq x b] at hframe ⊢
  exact { frame := hframe.advance }

/-- DXYN completes, is refused for its height, or fails at an address of its sprite (R225). -/
theorem execDrw_ends (x y : RegIdx) (n : BitVec 4) (s : State) :
    ∃ t, execDrw x y n s = .next t ∧ Ends (.drw x y n) s t := by
  refine ⟨_, rfl, ?_⟩
  split
  · unfold drawNothing
    cases s.params.zeroHeight with
    | refuse => exact .refuses _ (by decide) rfl
    | noRows => exact .completes { frame := ((Frame.refl _ s).setReg (List.mem_singleton_self _) _).advance }
  · exact .checked fun _ => { frame := (((Frame.refl _ s).setFb rfl _).setReg (List.mem_singleton_self _) _).advance }

/-- A skip on a key completes, or its operand is refused (R252, R253). -/
theorem execSkp_ends (x : RegIdx) (s : State) : ∃ t, execSkp x s = .next t ∧ Ends (.skp x) s t := by
  unfold execSkp
  cases s.nibbleOperand x with
  | none => exact ⟨_, rfl, .refuses _ (by decide) rfl⟩
  | some k => exact ⟨_, rfl, .completes { frame := (Frame.refl _ s).skipIf _, pc := fun h => nomatch h }⟩

theorem execSknp_ends (x : RegIdx) (s : State) : ∃ t, execSknp x s = .next t ∧ Ends (.sknp x) s t := by
  unfold execSknp
  cases s.nibbleOperand x with
  | none => exact ⟨_, rfl, .refuses _ (by decide) rfl⟩
  | some k => exact ⟨_, rfl, .completes { frame := (Frame.refl _ s).skipIf _, pc := fun h => nomatch h }⟩

/-- FX29 completes, or its operand is refused (R192). -/
theorem execLdF_ends (x : RegIdx) (s : State) : ∃ t, execLdF x s = .next t ∧ Ends (.ldF x) s t := by
  unfold execLdF
  cases s.nibbleOperand x with
  | none => exact ⟨_, rfl, .refuses _ (by decide) rfl⟩
  | some d => exact ⟨_, rfl, .completes { frame := ((Frame.refl _ s).setI (.inl rfl)).advance }⟩

/-- Under `BULK_INDEX_INCREMENT = NONE` the bulk transfers leave `I` alone (R196). -/
theorem bulkInc_eq_self (p : Params) (i : Half) (x : RegIdx) :
    decide (p.bulkIncrement ≠ .none) = true ∨ bulkInc p i x = i := by
  unfold bulkInc
  cases p.bulkIncrement <;> simp

/-- A store of `bs` at `I` that passes its check keeps memory canonical (R66, R67). -/
theorem State.writeBytes_wf_of_badWrite (s : State) (a : Nat) (bs : List Byte) (h : s.badWrite a bs.length = none)
    (hwf : Memory.wf s.params s.mem) : Memory.wf (s.writeBytes a bs).params (s.writeBytes a bs).mem := by
  by_cases hn : bs = []
  · subst hn; exact hwf
  · exact s.writeBytes_wf a bs hwf (s.badWrite_none_inv a bs.length h (List.length_pos_iff.2 hn)).1

@[simp] theorem length_bcdDigits (b : Byte) : (bcdDigits b).length = 3 := rfl

@[simp] theorem length_regsUpTo (x : RegIdx) : (regsUpTo x).length = x.toNat + 1 := by simp [regsUpTo]

/-- FX33 completes, or fails at an address it would store to (R193). -/
theorem execLdB_ends (x : RegIdx) (s : State) : ∃ t, execLdB x s = .next t ∧ Ends (.ldB x) s t := by
  refine ⟨_, rfl, .checked fun hbad => ?_⟩
  have hframe := (Frame.refl (touched s (.ldB x)) s).writeBytes (bcdDigits (s.reg x)) (le_refl 3)
  have hwf := s.writeBytes_wf_of_badWrite s.i.toNat (bcdDigits (s.reg x)) hbad
  change Frame _ s (s.writeBytes s.i.toNat _) at hframe
  rw [State.writeBytes_eq] at hframe hwf ⊢
  exact { frame := hframe.advance, memory := hwf }

/-- FX55 completes, or fails at an address it would store to (R194). -/
theorem execStore_ends (x : RegIdx) (s : State) : ∃ t, execStore x s = .next t ∧ Ends (.store x) s t := by
  refine ⟨_, rfl, .checked fun hbad => ?_⟩
  have hlen : ((regsUpTo x).map s.reg).length = x.toNat + 1 := by simp
  have hframe := (Frame.refl (touched s (.store x)) s).writeBytes ((regsUpTo x).map s.reg) hlen.le
  have hwf := s.writeBytes_wf_of_badWrite s.i.toNat ((regsUpTo x).map s.reg) (hlen ▸ hbad)
  change Frame _ s (s.writeBytes s.i.toNat _) at hframe
  rw [State.writeBytes_eq] at hframe hwf ⊢
  exact { frame := (hframe.setI (bulkInc_eq_self s.params s.i x)).advance, memory := hwf }

/-- FX65 completes, or fails at an address it would read (R195). -/
theorem execLoad_ends (x : RegIdx) (s : State) : ∃ t, execLoad x s = .next t ∧ Ends (.load x) s t := by
  refine ⟨_, rfl, .checked fun _ => ?_⟩
  have hx : x.toNat < 16 := x.isLt
  have hframe := (Frame.refl (touched s (.load x)) s).setRegs 0 (s.readBytes s.i.toNat (x.toNat + 1)) fun j _ hj => by
    rw [State.length_readBytes] at hj
    exact (mem_regsUpTo x _).2 (by rw [BitVec.toNat_ofNat, Nat.mod_eq_of_lt (by omega)]; omega)
  rw [State.setRegs_eq] at hframe ⊢
  exact { frame := (hframe.setI (bulkInc_eq_self s.params s.i x)).advance }

/-- A skip on a comparison of registers completes (R125 to R128). -/
theorem Completes.skipIf {i : Instr} (s : State) (hi : sequential i = false) (c : Bool) : Completes i s (s.skipIf c) where
  frame := (Frame.refl _ s).skipIf c
  pc := fun h => by rw [hi] at h; cases h

/-- A jump completes (R122, R124). -/
theorem Completes.setPc {i : Instr} (s : State) (hi : sequential i = false) (a : Half) : Completes i s (s.setPc a) where
  frame := (Frame.refl _ s).setPc a
  pc := fun h => by rw [hi] at h; cases h

/-- A result without a flag completes an instruction that writes its register alone (R152 to R154, R242). -/
theorem Completes.setReg {i : Instr} (s : State) {x : RegIdx} (hi : writesV s.params i = [x]) (b : Byte) :
    Completes i s (s.setReg x b).advance where
  frame := ((Frame.refl _ s).setReg (by simp [touched, hi]) b).advance

/-- Every instruction answers a next state, in one of the three ways. -/
theorem exec_ends (i : Instr) (s : State) : ∃ t, exec i s = .next t ∧ Ends i s t := by
  cases i with
  | cls => exact ⟨_, rfl, .completes { frame := ((Frame.refl _ s).setFb rfl _).advance }⟩
  | ret => exact execRet_ends s
  | jp nnn => exact ⟨_, rfl, .completes (.setPc s rfl _)⟩
  | call nnn => exact execCall_ends nnn s
  | seImm x nn => exact ⟨_, rfl, .completes (.skipIf s rfl _)⟩
  | sneImm x nn => exact ⟨_, rfl, .completes (.skipIf s rfl _)⟩
  | seReg x y => exact ⟨_, rfl, .completes (.skipIf s rfl _)⟩
  | ldImm x nn => exact ⟨_, rfl, .completes (.setReg s rfl _)⟩
  | addImm x nn => exact ⟨_, rfl, .completes (.setReg s rfl _)⟩
  | ldReg x y => exact ⟨_, rfl, .completes (.setReg s rfl _)⟩
  | orReg x y => exact ⟨_, rfl, .completes (.setRegLogic s rfl _)⟩
  | andReg x y => exact ⟨_, rfl, .completes (.setRegLogic s rfl _)⟩
  | xorReg x y => exact ⟨_, rfl, .completes (.setRegLogic s rfl _)⟩
  | addReg x y => exact ⟨_, rfl, .completes (.setRegFlag s rfl _ _)⟩
  | sub x y => exact ⟨_, rfl, .completes (.setRegFlag s rfl _ _)⟩
  | shr x y => exact ⟨_, rfl, .completes (.setRegFlag s rfl _ _)⟩
  | subn x y => exact ⟨_, rfl, .completes (.setRegFlag s rfl _ _)⟩
  | shl x y => exact ⟨_, rfl, .completes (.setRegFlag s rfl _ _)⟩
  | sneReg x y => exact ⟨_, rfl, .completes (.skipIf s rfl _)⟩
  | ldI nnn => exact ⟨_, rfl, .completes { frame := ((Frame.refl _ s).setI (.inl rfl)).advance }⟩
  | jpV0 nnn => exact ⟨_, rfl, .completes (.setPc s rfl _)⟩
  | rnd x nn =>
    exact ⟨_, rfl, .completes
      { frame := (((Frame.refl _ s).draw rfl).setReg (List.mem_singleton_self x) _).advance }⟩
  | drw x y n => exact execDrw_ends x y n s
  | skp x => exact execSkp_ends x s
  | sknp x => exact execSknp_ends x s
  | ldFromDt x => exact ⟨_, rfl, .completes (.setReg s rfl _)⟩
  | ldKey x =>
    exact ⟨_, rfl, .completes
      { frame := (Frame.refl _ s).awaitKey rfl x, pc := fun h => (nomatch h), halt := fun h => (nomatch h) }⟩
  | ldDt x => exact ⟨_, rfl, .completes { frame := ((Frame.refl _ s).setDelay rfl _).advance }⟩
  | ldSt x => exact ⟨_, rfl, .completes { frame := ((Frame.refl _ s).setSound rfl _).advance }⟩
  | addI x => exact ⟨_, rfl, .completes { frame := ((Frame.refl _ s).setI (.inl rfl)).advance }⟩
  | ldF x => exact execLdF_ends x s
  | ldB x => exact execLdB_ends x s
  | store x => exact execStore_ends x s
  | load x => exact execLoad_ends x s

/-- What a given next state of an instruction is. -/
theorem ends_of_exec {i : Instr} {s t : State} (h : exec i s = .next t) : Ends i s t := by
  obtain ⟨u, hu, hends⟩ := exec_ends i s
  rw [hu] at h
  cases h
  exact hends

end Sys2Proof.Machine

/-! PROOFS. The forms a move of the whole core can take, and the statements about every step: the invariant, the
configuration, the check of `UNINIT_POLICY` (10_state R37, R44, 60_exceptions R283 to R293). -/

namespace Sys2Proof.Machine

/-! ## The forms of a step -/

/-- A stopped core is halted or refused (R293). -/
theorem State.stopped_eq_false (s : State) : s.stopped = false ↔ s.ctl ≠ .halted ∧ s.refused = none := by
  simp [State.stopped]

/-- What one move of a core that runs an instruction makes of it (R276, R279, R283): a fault, a refusal, or an
instruction that completes and is recorded. -/
inductive CpuMoves (s t : State) : Prop where
  | faults (c : FaultCause) (h : t = s.raise c)
  | refuses (r : RefuseReason) (h : t = s.refuse r)
  | completes (i : Instr) (t₀ : State) (w : Written) (hc : Completes i s t₀) (h : t = { t₀ with written := w })

/-- The record of what is written is all that is added to the state of an instruction, and only while it goes on. -/
theorem noteWritten_next (s t : State) (i : Instr) :
    ∃ w, noteWritten s i (.next t) = .next { t with written := w } ∧
      (t.stopped = true → w = t.written) ∧ (t.stopped = false → w = t.written.after s i) := by
  cases e : t.stopped with
  | true => exact ⟨t.written, by simp [noteWritten, e], fun _ => rfl, by simp⟩
  | false => exact ⟨t.written.after s i, by simp [noteWritten, e], by simp, fun _ => rfl⟩

/-- The executor's step of a core that is not stopped goes on in one of its forms (R283). -/
theorem cpuStep_moves (s : State) : ∃ t, cpuStep s = .next t ∧ CpuMoves s t := by
  unfold cpuStep
  split
  next c _ => exact ⟨_, rfl, .faults c rfl⟩
  next i _ =>
    split
    · exact ⟨_, rfl, .refuses _ rfl⟩
    · obtain ⟨t, ht, hends⟩ := exec_ends i s
      obtain ⟨w, hw, hkeep, -⟩ := noteWritten_next s t i
      refine ⟨_, ht ▸ hw, ?_⟩
      cases hends with
      | completes hc => exact .completes i t w hc rfl
      | faults c h => subst h; exact .faults c (by rw [hkeep rfl])
      | refuses r _ h => subst h; exact .refuses r (by rw [hkeep (by simp [State.stopped])])

/-- The forms of one step of the core that goes on: an instruction, an instruction slot consumed by the wait for a key,
a tick, a frame, a call of the host, or nothing at all (R286 to R295). -/
inductive Moves (s t : State) : Prop where
  | runs (u : State) (hlive : s.stopped = false) (hpick : s.pick = some (.instr, u)) (hrun : s.ctl = .running)
      (h : CpuMoves (u.count .instr) t)
  | waits (u : State) (hpick : s.pick = some (.instr, u)) (h : t = u.count .instr)
  | ticks (u : State) (hpick : s.pick = some (.tick, u)) (h : t = (u.count .tick).tick)
  | shows (u : State) (hpick : s.pick = some (.frame, u)) (h : t = (u.count .frame).frame)
  | calls (c : HostCall) (rest : List HostCall) (h : t = ({ s with calls := rest } : State).hostCall c)
  | idles (h : t = s)

/-- Picking a slot leaves everything but the tie counter alone, and the slot is due (R286, R290). -/
theorem State.pick_due (s u : State) (a : Stream) (h : s.pick = some (a, u)) :
    s.due a = true ∧ ∃ k, u = { s with ties := k } := by
  obtain ⟨hmem, hu, -⟩ := s.pick_some u a h
  exact ⟨((s.mem_soonest a).1 hmem).1, u.ties, hu⟩

/-- The host's turn takes its next call, or leaves the core as it is (R295). -/
theorem hostTurn_next (s t : State) (h : hostTurn s = .next t) :
    (∃ c rest, t = ({ s with calls := rest } : State).hostCall c) ∨ t = s := by
  unfold hostTurn at h
  split at h
  next c rest _ => cases h; exact .inl ⟨c, rest, rfl⟩
  next =>
    split at h
    · cases h
    · split at h
      · cases h
      · cases h; exact .inr rfl

/-- Every step that goes on has one of the forms. -/
theorem step_moves (s t : State) (h : step s = .next t) : Moves s t := by
  rcases step_cases s _ h with ⟨hlive, a, u, hpick, hslot⟩ | ⟨-, hhost⟩
  · cases a with
    | instr =>
      have hctl : (u.count .instr).ctl = s.ctl := by
        obtain ⟨-, k, rfl⟩ := s.pick_due u .instr hpick
        rfl
      have hslot : .next t = instrSlot (u.count .instr) := hslot
      rw [instrSlot, hctl] at hslot
      cases hrun : s.ctl with
      | running =>
        obtain ⟨t', ht', hmoves⟩ := cpuStep_moves (u.count .instr)
        simp only [hrun, ht'] at hslot
        cases hslot
        exact .runs u hlive hpick hrun hmoves
      | waitingForKey x =>
        simp only [hrun] at hslot
        cases hslot
        exact .waits u hpick rfl
      | halted => exact absurd hrun (s.stopped_eq_false.1 hlive).1
    | tick => cases hslot; exact .ticks u hpick rfl
    | frame => cases hslot; exact .shows u hpick rfl
  · rcases hostTurn_next s t hhost.symm with ⟨c, rest, ht⟩ | ht
    · exact .calls c rest ht
    · exact .idles ht

/-! ## The invariant -/

/-- The fault entry keeps the invariant of a core that is not refused (R276). -/
theorem State.Wf.raise {s : State} (h : s.Wf) (hr : s.refused = none) (c : FaultCause) : (s.raise c).Wf := by
  obtain ⟨hmem, hsp, hcfg, hpar, htime, hcount, -, -⟩ := h
  refine ⟨hmem, hsp, hcfg, hpar, htime, hcount, by simp, ?_⟩
  simp [hr]

/-- A refusal keeps the invariant of a running core (R279, R284). -/
theorem State.Wf.refuse {s : State} (h : s.Wf) (hrun : s.ctl = .running) (r : RefuseReason) : (s.refuse r).Wf := by
  obtain ⟨hmem, hsp, hcfg, hpar, htime, hcount, hfault, -⟩ := h
  exact ⟨hmem, hsp, hcfg, hpar, htime, hcount, hfault, fun _ => hrun⟩

/-- A completed instruction keeps the invariant of a running core (R37, R41, R284). -/
theorem Completes.wf {i : Instr} {s t : State} (hc : Completes i s t) (h : s.Wf) (hrun : s.ctl = .running)
    (hr : s.refused = none) : t.Wf := by
  obtain ⟨hmem, hsp, hcfg, hpar, htime, hcount, hfault, -⟩ := h
  obtain ⟨ecfg, epar⟩ := hc.frame.setup_eq
  obtain ⟨etime, edone⟩ := hc.frame.clock_eq
  refine ⟨hc.memory hmem, hc.stack hsp, ecfg ▸ hcfg, epar ▸ hpar, etime ▸ htime, ?_, ?_, ?_⟩
  · simpa only [edone, State.rate, ecfg, etime] using hcount
  · have hlive : t.ctl ≠ .halted := fun e => by simpa [hrun] using hc.halt e
    rw [hc.frame.fault_eq, ← hfault, hrun]
    simp [hlive]
  · simp [hc.frame.refused_eq, hr]

/-- A processed slot that was due keeps the invariant (R286). -/
theorem State.Wf.count {s : State} (h : s.Wf) (a : Stream) (hdue : s.due a = true) (k : Nat) :
    (({ s with ties := k } : State).count a).Wf := by
  obtain ⟨hmem, hsp, hcfg, hpar, htime, ⟨hinstr, htick, hframe⟩, hrest⟩ := h
  rw [State.due_iff] at hdue
  cases a with
  | instr => exact ⟨hmem, hsp, hcfg, hpar, htime, ⟨hdue, htick, hframe⟩, hrest⟩
  | tick => exact ⟨hmem, hsp, hcfg, hpar, htime, ⟨hinstr, hdue, hframe⟩, hrest⟩
  | frame => exact ⟨hmem, hsp, hcfg, hpar, htime, ⟨hinstr, htick, hdue⟩, hrest⟩

/-- Time that moves on keeps the invariant: the counters fall behind, and none gets ahead (R286). -/
theorem State.Wf.elapse {s : State} (h : s.Wf) (num den : Nat) : (s.elapse num den).Wf := by
  obtain ⟨hmem, hsp, hcfg, hpar, htime, ⟨hinstr, htick, hframe⟩, hrest⟩ := h
  have hadv : 0 ≤ mkRat num den := Rat.mkRat_nonneg (by omega) den
  have hle : s.time ≤ s.time + mkRat num den := le_add_of_nonneg_right hadv
  have hbound : ∀ a : Stream, (s.done a : Rat) ≤ s.time * s.rate a →
      ((s.elapse num den).done a : Rat) ≤ (s.elapse num den).time * (s.elapse num den).rate a := fun a hd => by
    have hgrow := hd.trans (mul_le_mul_of_nonneg_right hle (Nat.cast_nonneg (s.rate a)))
    cases a <;> exact hgrow
  exact ⟨hmem, hsp, hcfg, hpar, htime.trans hle, ⟨hbound .instr hinstr, hbound .tick htick, hbound .frame hframe⟩, hrest⟩

/-- A key event keeps the invariant; the one that ends a wait finds a core that is neither halted nor refused (R255). -/
theorem State.Wf.hostCall {s : State} (h : s.Wf) (c : HostCall) : (s.hostCall c).Wf := by
  rcases s.hostCall_cases c with ⟨num, den, -, e⟩ | ⟨k, p, -, e⟩ | ⟨k, x, -, hwait, -, e⟩ <;> rw [e]
  · exact h.elapse num den
  · exact h
  · obtain ⟨hmem, hsp, hcfg, hpar, htime, hcount, hfault, -⟩ := h
    rw [hwait] at hfault
    refine ⟨hmem, hsp, hcfg, hpar, htime, hcount, ?_, fun _ => rfl⟩
    change RunState.running = .halted ↔ s.fault.isSome = true
    rw [← hfault]
    simp

/-- The executor's step keeps the invariant of a core that runs (R283). -/
theorem CpuMoves.wf {s t : State} (h : CpuMoves s t) (hwf : s.Wf) (hrun : s.ctl = .running) (hr : s.refused = none) :
    t.Wf := by
  cases h with
  | faults c e => subst e; exact hwf.raise hr c
  | refuses r e => subst e; exact hwf.refuse hrun r
  | completes i t₀ w hc e => subst e; exact hc.wf hwf hrun hr

/-- Settles O22, form by form of the step. -/
theorem stepKeepsTheInvariant : Obligations.StepKeepsTheInvariant := by
  intro s t hwf hstep
  cases step_moves s t hstep with
  | runs u hlive hpick hrun h =>
    obtain ⟨hdue, k, rfl⟩ := s.pick_due u _ hpick
    exact h.wf (hwf.count .instr hdue k) hrun (s.stopped_eq_false.1 hlive).2
  | waits u hpick h =>
    obtain ⟨hdue, k, rfl⟩ := s.pick_due u _ hpick
    exact h ▸ hwf.count .instr hdue k
  | ticks u hpick h =>
    obtain ⟨hdue, k, rfl⟩ := s.pick_due u _ hpick
    subst h
    exact hwf.count .tick hdue k
  | shows u hpick h =>
    obtain ⟨hdue, k, rfl⟩ := s.pick_due u _ hpick
    subst h
    exact hwf.count .frame hdue k
  | calls c rest h =>
    subst h
    exact State.Wf.hostCall (s := { s with calls := rest }) hwf c
  | idles h => exact h ▸ hwf

/-! ## The configuration and the parameters -/

/-- `t` has the configuration and the parameters of `s` (R37, R46). -/
def SameSetup (s t : State) : Prop := t.config = s.config ∧ t.params = s.params

theorem CpuMoves.sameSetup {s t : State} (h : CpuMoves s t) : SameSetup s t := by
  cases h with
  | faults c e => subst e; exact ⟨rfl, rfl⟩
  | refuses r e => subst e; exact ⟨rfl, rfl⟩
  | completes i t₀ w hc e => subst e; exact hc.frame.setup_eq

theorem State.hostCall_sameSetup (s : State) (c : HostCall) : SameSetup s (s.hostCall c) := by
  rcases s.hostCall_cases c with ⟨num, den, -, e⟩ | ⟨k, p, -, e⟩ | ⟨k, x, -, -, -, e⟩ <;> rw [e] <;> exact ⟨rfl, rfl⟩

/-- Settles O25, form by form of the step. -/
theorem configurationNeverChanges : Obligations.ConfigurationNeverChanges := by
  intro s t hstep
  have hpicked : ∀ {a : Stream} {u : State}, s.pick = some (a, u) → SameSetup s u := fun hpick => by
    obtain ⟨-, k, rfl⟩ := s.pick_due _ _ hpick
    exact ⟨rfl, rfl⟩
  cases step_moves s t hstep with
  | runs u _ hpick _ h =>
    obtain ⟨ecfg, epar⟩ := h.sameSetup
    exact ⟨ecfg.trans (hpicked hpick).1, epar.trans (hpicked hpick).2⟩
  | waits u hpick h => subst h; exact hpicked (u := u) hpick
  | ticks u hpick h => subst h; exact hpicked (u := u) hpick
  | shows u hpick h => subst h; exact hpicked (u := u) hpick
  | calls c rest h => subst h; exact State.hostCall_sameSetup { s with calls := rest } c
  | idles h => subst h; exact ⟨rfl, rfl⟩

/-! ## The check of `UNINIT_POLICY` -/

/-- A fetch from an even `PC` of at most 4094 whose word decodes gives its instruction (R70, R92). -/
theorem State.fetchDecode_ok (s : State) (i : Instr) (heven : s.pc.toNat % 2 = 0) (htop : s.pc.toNat ≤ 4094)
    (hdec : decode (wordOfBytes (s.readByte s.pc.toNat) (s.readByte (s.pc.toNat + 1))) = .ok i) :
    s.fetchDecode = .ok i := by
  have hfetch : s.fetch = .ok (wordOfBytes (s.readByte s.pc.toNat) (s.readByte (s.pc.toNat + 1))) :=
    if_neg (by omega)
  simp only [State.fetchDecode, hfetch, hdec]

/-- The instruction slot of a running core is the executor's step at the counted state (R283, R287). -/
theorem step_eq_cpuStep (s u : State) (hlive : s.stopped = false) (hpick : s.pick = some (.instr, u))
    (hrun : s.ctl = .running) : step s = cpuStep { s with ties := u.ties, nInstr := s.nInstr + 1 } := by
  obtain ⟨-, k, rfl⟩ := s.pick_due u _ hpick
  rw [step, turn, hlive, hpick]
  simp only [Bool.false_eq_true, if_false, processSlot, instrSlot, State.count, hrun]

/-- The executor's step of an instruction that fails the check is refused (R44). -/
theorem cpuStep_of_uninitialised (s : State) (i : Instr) (hdec : s.fetchDecode = .ok i)
    (hun : s.uninitialised i = true) : cpuStep s = .next (s.refuse .uninitialisedRead) := by
  simp only [cpuStep, hdec, hun, if_true]

/-- The executor's step of an instruction that passes the check is its meaning, recorded (R44, R283). -/
theorem cpuStep_of_initialised (s : State) (i : Instr) (hdec : s.fetchDecode = .ok i)
    (hun : s.uninitialised i = false) : cpuStep s = noteWritten s i (exec i s) := by
  simp only [cpuStep, hdec, hun, Bool.false_eq_true, if_false]

/-- An instruction that passes the check is not refused as if it had failed it, and what it writes is recorded when it
goes on (R44). -/
theorem noteWritten_exec (s : State) (i : Instr) (hr : s.refused = none) :
    ∃ t, noteWritten s i (exec i s) = .next t ∧ t.refused ≠ some .uninitialisedRead ∧
      (t.stopped = false → Records i s t) := by
  obtain ⟨t, ht, hends⟩ := exec_ends i s
  obtain ⟨w, hw, -, hafter⟩ := noteWritten_next s t i
  refine ⟨_, ht ▸ hw, ?_, ?_⟩
  · cases hends with
    | completes hc => simp [hc.frame.refused_eq, hr]
    | faults c h => subst h; simp [hr]
    | refuses r hne h => subst h; simpa using hne
  · intro hlive
    refine records_after i s _ ((hafter hlive).trans ?_)
    cases hends with
    | completes hc => rw [hc.frame.written_eq]
    | faults c h => subst h; rfl
    | refuses r _ h => subst h; rfl

/-- Settles O8: the check comes right after the decoding, and what passes it is `exec` with its record. -/
theorem uninitialisedReadIsRefusedOnlyByPolicy : Obligations.UninitialisedReadIsRefusedOnlyByPolicy := by
  refine ⟨fun s i hzero => by simp [State.uninitialised, hzero], ?_⟩
  intro s u i hlive hpick hrun heven htop hdec hpolicy
  have hcheck : s.uninitialised i = true ↔ s.ReadsNeverWritten i := by
    simp [State.uninitialised, hpolicy, s.readsUnwritten_iff i]
  have hfetch := State.fetchDecode_ok { s with ties := u.ties, nInstr := s.nInstr + 1 } i heven htop hdec
  rw [step_eq_cpuStep s u hlive hpick hrun]
  refine ⟨fun hreads => ?_, fun hreads => ?_⟩
  · exact ⟨_, cpuStep_of_uninitialised _ i hfetch (hcheck.2 hreads), rfl⟩
  · have hun : s.uninitialised i = false := by simpa [hreads] using hcheck
    rw [cpuStep_of_initialised _ i hfetch hun]
    exact noteWritten_exec _ i (s.stopped_eq_false.1 hlive).2

end Sys2Proof.Machine

/-! PROOFS. The statements about what one instruction changes, each read off the ways it can end (10_state R21 to
R36). -/

namespace Sys2Proof.Machine

/-- Settles O26: an instruction that completes sets neither `FAULT` nor `REFUSED`, and the other two ends change
nothing else but `STATE` and the report. -/
theorem faultingAndRefusedStepsChangeNothing : Obligations.FaultingAndRefusedStepsChangeNothing := by
  intro i s hfault hrefused
  obtain ⟨t, ht, hends⟩ := exec_ends i s
  refine ⟨t, ht, fun hstops => ?_⟩
  cases hends with
  | completes hc => simp [hc.frame.fault_eq, hc.frame.refused_eq, hfault, hrefused] at hstops
  | faults c h => subst h; rfl
  | refuses r _ h => subst h; rfl

/-- Settles O28: an instruction that neither faults nor is refused completes. -/
theorem otherInstructionsAdvanceByTwo : Obligations.OtherInstructionsAdvanceByTwo := by
  intro i s t hseq _ _ hexec hfault hrefused
  cases ends_of_exec hexec with
  | completes hc => rw [Advances, hc.pc hseq, s.pcNext_toNat]
  | faults c h => subst h; cases hfault
  | refuses r _ h => subst h; cases hrefused

/-- Settles O30. -/
theorem onlyListedRegistersAreWritten : Obligations.OnlyListedRegistersAreWritten := by
  intro i s t r hexec hr
  cases ends_of_exec hexec with
  | completes hc =>
    obtain ⟨hregs, -⟩ := hc.frame
    exact hregs r hr
  | faults c h => subst h; rfl
  | refuses r _ h => subst h; rfl

/-! ## The parts of the state and their writers -/

theorem touched_bytes_eq_zero {s : State} {i : Instr} (h : ∀ x, i ≠ .ldB x ∧ i ≠ .store x) :
    (touched s i).bytes = 0 := by
  cases i with
  | ldB x => exact absurd rfl (h x).1
  | store x => exact absurd rfl (h x).2
  | _ => rfl

theorem touched_stack_eq_false {s : State} {i : Instr} (h : i ≠ .ret ∧ ∀ nnn, i ≠ .call nnn) :
    (touched s i).stack = false := by
  cases i with
  | ret => exact absurd rfl h.1
  | call nnn => exact absurd rfl (h.2 nnn)
  | _ => rfl

theorem touched_fb_eq_false {s : State} {i : Instr} (h : i ≠ .cls ∧ ∀ x y n, i ≠ .drw x y n) :
    (touched s i).fb = false := by
  cases i with
  | cls => exact absurd rfl h.1
  | drw x y n => exact absurd rfl (h.2 x y n)
  | _ => rfl

theorem touched_dt_eq_false {s : State} {i : Instr} (h : ∀ x, i ≠ .ldDt x) : (touched s i).dt = false := by
  cases i with
  | ldDt x => exact absurd rfl (h x)
  | _ => rfl

theorem touched_st_eq_false {s : State} {i : Instr} (h : ∀ x, i ≠ .ldSt x) : (touched s i).st = false := by
  cases i with
  | ldSt x => exact absurd rfl (h x)
  | _ => rfl

theorem touched_i_eq_false {s : State} {i : Instr}
    (h : (∀ nnn, i ≠ .ldI nnn) ∧ ∀ x, i ≠ .addI x ∧ i ≠ .ldF x ∧ i ≠ .store x ∧ i ≠ .load x) :
    (touched s i).i = false := by
  obtain ⟨hldI, hreg⟩ := h
  cases i with
  | ldI nnn => exact absurd rfl (hldI nnn)
  | addI x => simpa using hreg x
  | ldF x => simpa using hreg x
  | store x => simpa using hreg x
  | load x => simpa using hreg x
  | _ => rfl

/-- Settles O32: the frame of a completed instruction, with the parts that each instruction may touch. -/
theorem eachPartHasOnlyItsWriters : Obligations.EachPartHasOnlyItsWriters := by
  intro i s t hexec
  cases ends_of_exec hexec with
  | completes hc =>
    obtain ⟨-, hi, hstack, hdt, hst, hfb, -, -, hbytes, hkeys, -⟩ := hc.frame
    refine ⟨fun h a => hbytes a ?_, fun h => ?_, fun h => ?_, fun h => ?_, fun h => ?_, fun h => ?_, hkeys⟩
    · rw [touched_bytes_eq_zero h]; omega
    · simpa [touched_stack_eq_false h] using hstack
    · simpa [touched_fb_eq_false h] using hfb
    · simpa [touched_dt_eq_false h] using hdt
    · simpa [touched_st_eq_false h] using hst
    · simpa [touched_i_eq_false h] using hi
  | faults c h => subst h; simp [State.readByte]
  | refuses r _ h => subst h; simp [State.readByte]

/-! ## What an instruction does not read -/

/-- `t` is `s` but for V registers, and those of `R` hold the same in both. -/
def AgreeOn (R : RegIdx → Prop) (s t : State) : Prop := t = { s with v := t.v } ∧ ∀ q, R q → t.reg q = s.reg q

section AgreeRules

variable {R : RegIdx → Prop} {s t : State}

theorem AgreeOn.exists_v (h : AgreeOn R s t) : ∃ v, t = { s with v := v } := ⟨t.v, h.1⟩

theorem AgreeOn.mono (h : AgreeOn R s t) {Q : RegIdx → Prop} (hQ : ∀ q, Q q → R q) : AgreeOn Q s t :=
  ⟨h.1, fun q hq => h.2 q (hQ q hq)⟩

theorem AgreeOn.setPc (h : AgreeOn R s t) (a : Half) : AgreeOn R (s.setPc a) (t.setPc a) := by
  obtain ⟨v, rfl⟩ := h.exists_v
  exact ⟨rfl, h.2⟩

theorem AgreeOn.advance (h : AgreeOn R s t) : AgreeOn R s.advance t.advance := by
  obtain ⟨v, rfl⟩ := h.exists_v
  exact ⟨rfl, h.2⟩

theorem AgreeOn.skipIf (h : AgreeOn R s t) (c : Bool) : AgreeOn R (s.skipIf c) (t.skipIf c) := by
  obtain ⟨v, rfl⟩ := h.exists_v
  exact ⟨rfl, h.2⟩

theorem AgreeOn.setI (h : AgreeOn R s t) (a : Half) : AgreeOn R (s.setI a) (t.setI a) := by
  obtain ⟨v, rfl⟩ := h.exists_v
  exact ⟨rfl, h.2⟩

theorem AgreeOn.raise (h : AgreeOn R s t) (c : FaultCause) : AgreeOn R (s.raise c) (t.raise c) := by
  obtain ⟨v, rfl⟩ := h.exists_v
  exact ⟨rfl, h.2⟩

theorem AgreeOn.refuse (h : AgreeOn R s t) (r : RefuseReason) : AgreeOn R (s.refuse r) (t.refuse r) := by
  obtain ⟨v, rfl⟩ := h.exists_v
  exact ⟨rfl, h.2⟩

theorem AgreeOn.setStack (h : AgreeOn R s t) (e : Vector Half 16) (p : Byte) :
    AgreeOn R (s.setStack e p) (t.setStack e p) := by
  obtain ⟨v, rfl⟩ := h.exists_v
  exact ⟨rfl, h.2⟩

theorem AgreeOn.setDelay (h : AgreeOn R s t) (b : Byte) : AgreeOn R (s.setDelay b) (t.setDelay b) := by
  obtain ⟨v, rfl⟩ := h.exists_v
  exact ⟨rfl, h.2⟩

theorem AgreeOn.setSound (h : AgreeOn R s t) (b : Byte) : AgreeOn R (s.setSound b) (t.setSound b) := by
  obtain ⟨v, rfl⟩ := h.exists_v
  exact ⟨rfl, h.2⟩

theorem AgreeOn.setFb (h : AgreeOn R s t) (fb : Framebuffer) : AgreeOn R (s.setFb fb) (t.setFb fb) := by
  obtain ⟨v, rfl⟩ := h.exists_v
  exact ⟨rfl, h.2⟩

theorem AgreeOn.awaitKey (h : AgreeOn R s t) (x : RegIdx) : AgreeOn R (s.awaitKey x) (t.awaitKey x) := by
  obtain ⟨v, rfl⟩ := h.exists_v
  exact ⟨rfl, h.2⟩

theorem AgreeOn.draw (h : AgreeOn R s t) : AgreeOn R s.draw.2 t.draw.2 := by
  obtain ⟨v, rfl⟩ := h.exists_v
  exact ⟨rfl, h.2⟩

theorem AgreeOn.writeBytes (h : AgreeOn R s t) (a : Nat) (bs : List Byte) :
    AgreeOn R (s.writeBytes a bs) (t.writeBytes a bs) := by
  induction bs generalizing s t a with
  | nil => exact h
  | cons b bs ih =>
    refine ih ?_ (a + 1)
    obtain ⟨v, rfl⟩ := h.exists_v
    exact ⟨rfl, h.2⟩

/-- A register written with the same byte on both sides agrees afterwards. -/
theorem AgreeOn.setReg (h : AgreeOn R s t) (r : RegIdx) (b : Byte) :
    AgreeOn (fun q => R q ∨ q = r) (s.setReg r b) (t.setReg r b) := by
  obtain ⟨v, rfl⟩ := h.exists_v
  refine ⟨rfl, fun q hq => ?_⟩
  rw [State.reg_setReg, State.reg_setReg]
  split
  next => rfl
  next hne => exact h.2 q (hq.resolve_right hne)

theorem AgreeOn.setRegs (h : AgreeOn R s t) (k : Nat) (bs : List Byte) :
    AgreeOn (fun q => R q ∨ ∃ j, k ≤ j ∧ j < k + bs.length ∧ q = BitVec.ofNat 4 j) (s.setRegs k bs) (t.setRegs k bs) := by
  induction bs generalizing R s t k with
  | nil => exact h.mono fun q hq => hq.resolve_right fun ⟨j, h1, h2, _⟩ => by rw [List.length_nil] at h2; omega
  | cons b bs ih =>
    refine (ih (h.setReg (BitVec.ofNat 4 k) b) (k + 1)).mono ?_
    rintro q (hq | ⟨j, h1, h2, rfl⟩)
    · exact .inl (.inl hq)
    · rw [List.length_cons] at h2
      by_cases e : j = k
      · exact .inl (.inr (by rw [e]))
      · exact .inr ⟨j, by omega, by omega, rfl⟩

end AgreeRules

/-- Instruction `i`, run from `s` and from a state that agrees with it on `R`, has ended alike in `t` and `t'`: it
completed and the registers it writes agree too, or it stopped and moved nothing. -/
inductive EndsAlike (i : Instr) (R : RegIdx → Prop) (s t t' : State) : Prop where
  | completes (h : AgreeOn (fun q => R q ∨ q ∈ writesV s.params i) t t')
  | stops (hpc : t.pc = s.pc) (h : AgreeOn R t t')

section EndsAlikeRules

variable {i : Instr} {R : RegIdx → Prop} {s s' t t' : State}

/-- An instruction that completes and writes no register. -/
theorem EndsAlike.of_agreeOn (h : AgreeOn R t t') (hw : writesV s.params i = []) : EndsAlike i R s t t' :=
  .completes (h.mono fun q hq => by simpa [hw] using hq)

theorem EndsAlike.skipIf (h : AgreeOn R s s') (hw : writesV s.params i = []) {c c' : Bool} (hc : c' = c) :
    EndsAlike i R s (s.skipIf c) (s'.skipIf c') := by
  subst hc
  exact .of_agreeOn (h.skipIf c') hw

theorem EndsAlike.setReg (h : AgreeOn R t t') {x : RegIdx} (hw : writesV s.params i = [x]) {b b' : Byte} (hb : b' = b) :
    EndsAlike i R s (t.setReg x b).advance (t'.setReg x b').advance := by
  subst hb
  exact .completes ((h.setReg x b').advance.mono fun q hq => by simpa [hw] using hq)

theorem EndsAlike.setRegFlag (h : AgreeOn R s s') {x : RegIdx} (hw : writesV s.params i = [x, VF]) {b b' f f' : Byte}
    (hb : b' = b) (hf : f' = f) : EndsAlike i R s (s.setRegFlag x b f).advance (s'.setRegFlag x b' f').advance := by
  subst hb hf
  exact .completes (((h.setReg x b').setReg VF f').advance.mono fun q hq => by simpa [hw, or_assoc] using hq)

theorem EndsAlike.setRegLogic (h : AgreeOn R s s') {x : RegIdx}
    (hw : writesV s.params i = if s.params.logicClearsVF then [x, VF] else [x]) {b b' : Byte} (hb : b' = b) :
    EndsAlike i R s (s.setRegLogic x b).advance (s'.setRegLogic x b').advance := by
  have hparams : s'.params = s.params := by rw [h.1]
  unfold State.setRegLogic
  rw [hparams]
  cases e : s.params.logicClearsVF with
  | true => exact .setRegFlag h (by simp [hw, e]) hb rfl
  | false => exact .setReg h (by simp [hw, e]) hb

/-- The address checks of both runs answer alike (R72). -/
theorem EndsAlike.checked (h : AgreeOn R s s') {bad : Option Nat} (ht : EndsAlike i R s t t') :
    EndsAlike i R s (s.checked bad t) (s'.checked bad t') := by
  cases bad with
  | none => exact ht
  | some a => exact .stops rfl (h.raise _)

end EndsAlikeRules

/-- The shift source is one of the registers a shift reads (D10). -/
theorem State.shiftOperand_congr {s t : State} {x y : RegIdx} (hp : t.params = s.params)
    (hr : ∀ q ∈ readsV s.params (.shr x y), t.reg q = s.reg q) : t.shiftOperand x y = s.shiftOperand x y := by
  simp only [readsV] at hr
  unfold State.shiftOperand
  rw [hp]
  cases e : s.params.shiftSource <;> simpa [e] using hr

/-- A nibble operand depends on its register and the policy alone (R192, R252, R253). -/
theorem State.nibbleOperand_congr {s t : State} {x : RegIdx} (hp : t.params = s.params) (hx : t.reg x = s.reg x) :
    t.nibbleOperand x = s.nibbleOperand x := by
  unfold State.nibbleOperand
  rw [hp, hx]

section UnreadRegisters

variable {R : RegIdx → Prop} {s s' : State}

theorem execRet_alike (h : AgreeOn R s s') :
    ∃ t t', execRet s = .next t ∧ execRet s' = .next t' ∧ EndsAlike .ret R s t t' := by
  obtain ⟨v, rfl⟩ := h.exists_v
  unfold execRet State.pop
  by_cases hsp : s.sp = 0x00#8
  · simp only [if_pos hsp]
    exact ⟨_, _, rfl, rfl, .stops rfl (h.raise _)⟩
  · simp only [if_neg hsp]
    exact ⟨_, _, rfl, rfl, .of_agreeOn ((h.setStack _ _).setPc _) rfl⟩

theorem execCall_alike (nnn : Addr12) (h : AgreeOn R s s') :
    ∃ t t', execCall nnn s = .next t ∧ execCall nnn s' = .next t' ∧ EndsAlike (.call nnn) R s t t' := by
  obtain ⟨v, rfl⟩ := h.exists_v
  unfold execCall State.push
  by_cases hsp : s.sp.toNat < stackDepth
  · simp only [hsp, if_true]
    exact ⟨_, _, rfl, rfl, .of_agreeOn ((h.setStack _ _).setPc _) rfl⟩
  · simp only [hsp, if_false]
    exact ⟨_, _, rfl, rfl, .stops rfl (h.raise _)⟩

theorem execDrw_alike (x y : RegIdx) (n : BitVec 4) (h : AgreeOn R s s') (hx : s'.reg x = s.reg x)
    (hy : s'.reg y = s.reg y) :
    ∃ t t', execDrw x y n s = .next t ∧ execDrw x y n s' = .next t' ∧ EndsAlike (.drw x y n) R s t t' := by
  obtain ⟨v, rfl⟩ := h.exists_v
  refine ⟨_, _, rfl, rfl, ?_⟩
  by_cases hn : n = 0x0#4
  · simp only [hn, if_true, drawNothing]
    cases s.params.zeroHeight with
    | refuse => exact .stops rfl (h.refuse _)
    | noRows => exact .setReg h rfl rfl
  · simp only [hn, if_false, drawAtI, hx, hy]
    exact .checked h (.setReg (h.setFb _) rfl rfl)

theorem execSkp_alike (x : RegIdx) (h : AgreeOn R s s') (hx : s'.reg x = s.reg x) :
    ∃ t t', execSkp x s = .next t ∧ execSkp x s' = .next t' ∧ EndsAlike (.skp x) R s t t' := by
  have hnib := State.nibbleOperand_congr (by rw [h.1]) hx
  obtain ⟨v, rfl⟩ := h.exists_v
  simp only [execSkp, hnib]
  cases s.nibbleOperand x with
  | none => exact ⟨_, _, rfl, rfl, .stops rfl (h.refuse _)⟩
  | some k => exact ⟨_, _, rfl, rfl, .skipIf h rfl rfl⟩

theorem execSknp_alike (x : RegIdx) (h : AgreeOn R s s') (hx : s'.reg x = s.reg x) :
    ∃ t t', execSknp x s = .next t ∧ execSknp x s' = .next t' ∧ EndsAlike (.sknp x) R s t t' := by
  have hnib := State.nibbleOperand_congr (by rw [h.1]) hx
  obtain ⟨v, rfl⟩ := h.exists_v
  simp only [execSknp, hnib]
  cases s.nibbleOperand x with
  | none => exact ⟨_, _, rfl, rfl, .stops rfl (h.refuse _)⟩
  | some k => exact ⟨_, _, rfl, rfl, .skipIf h rfl rfl⟩

theorem execLdF_alike (x : RegIdx) (h : AgreeOn R s s') (hx : s'.reg x = s.reg x) :
    ∃ t t', execLdF x s = .next t ∧ execLdF x s' = .next t' ∧ EndsAlike (.ldF x) R s t t' := by
  have hnib := State.nibbleOperand_congr (by rw [h.1]) hx
  obtain ⟨v, rfl⟩ := h.exists_v
  simp only [execLdF, hnib]
  cases s.nibbleOperand x with
  | none => exact ⟨_, _, rfl, rfl, .stops rfl (h.refuse _)⟩
  | some d => exact ⟨_, _, rfl, rfl, .of_agreeOn (h.setI _).advance rfl⟩

theorem execLdB_alike (x : RegIdx) (h : AgreeOn R s s') (hx : s'.reg x = s.reg x) :
    ∃ t t', execLdB x s = .next t ∧ execLdB x s' = .next t' ∧ EndsAlike (.ldB x) R s t t' := by
  obtain ⟨v, rfl⟩ := h.exists_v
  refine ⟨_, _, rfl, rfl, ?_⟩
  rw [hx]
  exact .checked h (.of_agreeOn (h.writeBytes _ _).advance rfl)

theorem execStore_alike (x : RegIdx) (h : AgreeOn R s s') (hr : ∀ q ∈ regsUpTo x, s'.reg q = s.reg q) :
    ∃ t t', execStore x s = .next t ∧ execStore x s' = .next t' ∧ EndsAlike (.store x) R s t t' := by
  have hbytes : (regsUpTo x).map s'.reg = (regsUpTo x).map s.reg := List.map_congr_left hr
  obtain ⟨v, rfl⟩ := h.exists_v
  refine ⟨_, _, rfl, rfl, ?_⟩
  rw [hbytes]
  exact .checked h (.of_agreeOn ((h.writeBytes _ _).setI _).advance rfl)

theorem execLoad_alike (x : RegIdx) (h : AgreeOn R s s') :
    ∃ t t', execLoad x s = .next t ∧ execLoad x s' = .next t' ∧ EndsAlike (.load x) R s t t' := by
  obtain ⟨v, rfl⟩ := h.exists_v
  refine ⟨_, _, rfl, rfl, .checked h (.completes ?_)⟩
  refine ((h.setRegs 0 (s.readBytes s.i.toNat (x.toNat + 1))).setI _).advance.mono ?_
  rintro q (hq | hq)
  · exact .inl hq
  · have hle := (mem_regsUpTo x q).1 hq
    exact .inr ⟨q.toNat, by omega, by rw [State.length_readBytes]; omega, by simp⟩

/-- Every instruction ends alike from two states that agree on the registers it reads (R21). -/
theorem exec_alike (i : Instr) (h : AgreeOn R s s') (hr : ∀ q ∈ readsV s.params i, s'.reg q = s.reg q) :
    ∃ t t', exec i s = .next t ∧ exec i s' = .next t' ∧ EndsAlike i R s t t' := by
  have hparams : s'.params = s.params := by rw [h.1]
  cases i with
  | cls => exact ⟨_, _, rfl, rfl, .of_agreeOn (h.setFb _).advance rfl⟩
  | ret => exact execRet_alike h
  | jp nnn => exact ⟨_, _, rfl, rfl, .of_agreeOn (h.setPc _) rfl⟩
  | call nnn => exact execCall_alike nnn h
  | seImm x nn => exact ⟨_, _, rfl, rfl, .skipIf h rfl (by rw [hr x (by simp [readsV])])⟩
  | sneImm x nn => exact ⟨_, _, rfl, rfl, .skipIf h rfl (by rw [hr x (by simp [readsV])])⟩
  | seReg x y =>
    exact ⟨_, _, rfl, rfl, .skipIf h rfl (by rw [hr x (by simp [readsV]), hr y (by simp [readsV])])⟩
  | ldImm x nn => exact ⟨_, _, rfl, rfl, .setReg h rfl rfl⟩
  | addImm x nn => exact ⟨_, _, rfl, rfl, .setReg h rfl (by rw [hr x (by simp [readsV])])⟩
  | ldReg x y => exact ⟨_, _, rfl, rfl, .setReg h rfl (hr y (by simp [readsV]))⟩
  | orReg x y =>
    exact ⟨_, _, rfl, rfl, .setRegLogic h rfl (by rw [hr x (by simp [readsV]), hr y (by simp [readsV])])⟩
  | andReg x y =>
    exact ⟨_, _, rfl, rfl, .setRegLogic h rfl (by rw [hr x (by simp [readsV]), hr y (by simp [readsV])])⟩
  | xorReg x y =>
    exact ⟨_, _, rfl, rfl, .setRegLogic h rfl (by rw [hr x (by simp [readsV]), hr y (by simp [readsV])])⟩
  | addReg x y =>
    have hx := hr x (by simp [readsV])
    have hy := hr y (by simp [readsV])
    exact ⟨_, _, rfl, rfl, .setRegFlag h rfl (by rw [hx, hy]) (by rw [hx, hy])⟩
  | sub x y =>
    have hx := hr x (by simp [readsV])
    have hy := hr y (by simp [readsV])
    exact ⟨_, _, rfl, rfl, .setRegFlag h rfl (by rw [hx, hy]) (by rw [hx, hy])⟩
  | shr x y =>
    have hsrc := State.shiftOperand_congr hparams hr
    exact ⟨_, _, rfl, rfl, .setRegFlag h rfl (by rw [hsrc]) (by rw [hsrc])⟩
  | subn x y =>
    have hx := hr x (by simp [readsV])
    have hy := hr y (by simp [readsV])
    exact ⟨_, _, rfl, rfl, .setRegFlag h rfl (by rw [hx, hy]) (by rw [hx, hy])⟩
  | shl x y =>
    have hsrc := State.shiftOperand_congr (x := x) (y := y) hparams hr
    exact ⟨_, _, rfl, rfl, .setRegFlag h rfl (by rw [hsrc]) (by rw [hsrc])⟩
  | sneReg x y =>
    exact ⟨_, _, rfl, rfl, .skipIf h rfl (by rw [hr x (by simp [readsV]), hr y (by simp [readsV])])⟩
  | ldI nnn => exact ⟨_, _, rfl, rfl, .of_agreeOn (h.setI _).advance rfl⟩
  | jpV0 nnn =>
    obtain ⟨v, rfl⟩ := h.exists_v
    refine ⟨_, _, rfl, rfl, ?_⟩
    rw [hr 0x0#4 (by simp [readsV])]
    exact .of_agreeOn (h.setPc _) rfl
  | rnd x nn =>
    obtain ⟨v, rfl⟩ := h.exists_v
    exact ⟨_, _, rfl, rfl, .setReg h.draw rfl rfl⟩
  | drw x y n => exact execDrw_alike x y n h (hr x (by simp [readsV])) (hr y (by simp [readsV]))
  | skp x => exact execSkp_alike x h (hr x (by simp [readsV]))
  | sknp x => exact execSknp_alike x h (hr x (by simp [readsV]))
  | ldFromDt x =>
    obtain ⟨v, rfl⟩ := h.exists_v
    exact ⟨_, _, rfl, rfl, .setReg h rfl rfl⟩
  | ldKey x => exact ⟨_, _, rfl, rfl, .of_agreeOn (h.awaitKey x) rfl⟩
  | ldDt x =>
    refine ⟨_, _, rfl, rfl, ?_⟩
    rw [hr x (by simp [readsV])]
    exact .of_agreeOn (h.setDelay _).advance rfl
  | ldSt x =>
    refine ⟨_, _, rfl, rfl, ?_⟩
    rw [hr x (by simp [readsV])]
    exact .of_agreeOn (h.setSound _).advance rfl
  | addI x =>
    obtain ⟨v, rfl⟩ := h.exists_v
    refine ⟨_, _, rfl, rfl, ?_⟩
    rw [hr x (by simp [readsV])]
    exact .of_agreeOn (h.setI _).advance rfl
  | ldF x => exact execLdF_alike x h (hr x (by simp [readsV]))
  | ldB x => exact execLdB_alike x h (hr x (by simp [readsV]))
  | store x => exact execStore_alike x h hr
  | load x => exact execLoad_alike x h

end UnreadRegisters

/-- Settles O31: the two runs agree on every register but `r` before the instruction. -/
theorem unreadRegistersDoNotMatter : Obligations.UnreadRegistersDoNotMatter := by
  intro i s t t' r b hr hexec hexec'
  have hagree : AgreeOn (· ≠ r) s (s.setReg r b) :=
    ⟨rfl, fun q hq => by rw [State.reg_setReg, if_neg hq]⟩
  have hreads : ∀ q ∈ readsV s.params i, (s.setReg r b).reg q = s.reg q :=
    fun q hq => hagree.2 q fun e => hr (e ▸ hq)
  obtain ⟨u, u', hu, hu', hends⟩ := exec_alike i hagree hreads
  rw [hexec] at hu
  rw [hexec'] at hu'
  cases hu
  cases hu'
  cases hends with
  | completes h =>
    refine ⟨fun q hq => h.2 q (hq.imp_right And.left), ?_⟩
    obtain ⟨v, rfl⟩ := h.exists_v
    rfl
  | stops hpc h =>
    refine ⟨fun q hq => h.2 q (hq.resolve_right fun hmoved => hmoved.2 hpc), ?_⟩
    obtain ⟨v, rfl⟩ := h.exists_v
    rfl

end Sys2Proof.Machine

/-! PROOFS. Creation and the load of the image (10_state R43, 60_exceptions R300, R304, 70_reset R331). -/

namespace Sys2Proof.Machine

/-- A positive integer is the cast of a positive natural number. -/
theorem positiveInteger_iff (q : Rat) : positiveInteger q = true ↔ ∃ n : Nat, 0 < n ∧ q = (n : Rat) := by
  simp only [positiveInteger, Bool.and_eq_true, beq_iff_eq, decide_eq_true_eq]
  constructor
  · rintro ⟨hden, hnum⟩
    refine ⟨q.num.toNat, by omega, ?_⟩
    have hcast : ((q.num.toNat : Int) : Rat) = (q.num : Rat) := by rw [Int.toNat_of_nonneg hnum.le]
    rw [← Int.cast_natCast, hcast, Rat.den_eq_one_iff q |>.1 hden]
  · rintro ⟨n, hn, rfl⟩
    exact ⟨Rat.den_natCast n, by simpa using hn⟩

/-- The rate a core holds is the positive integer that its host asked for (R37). -/
theorem toNat_num_of_positiveInteger {q : Rat} (h : positiveInteger q = true) :
    (q.num.toNat : Rat) = q ∧ 1 ≤ q.num.toNat := by
  obtain ⟨n, hn, rfl⟩ := (positiveInteger_iff q).1 h
  simpa [Nat.one_le_iff_ne_zero, Nat.pos_iff_ne_zero] using hn

/-- What R304 asks of a configuration. -/
theorem configRequest_legal_iff (c : ConfigRequest) :
    c.legal = true ↔ positiveInteger c.instructionRateHz = true ∧ positiveInteger c.frameRateHz = true ∧
      0 < c.beepFrequencyHz := by
  simp only [ConfigRequest.legal, Bool.and_eq_true, decide_eq_true_eq, Rat.num_pos, and_assoc]

/-- The configuration that a created core holds (R37). -/
def heldConfig (c : ConfigRequest) : HostConfig where
  instructionRateHz := c.instructionRateHz.num.toNat
  frameRateHz := c.frameRateHz.num.toNat
  beepFrequencyHz := c.beepFrequencyHz
  gradientColoring := c.gradientColoring

theorem create_of_legal (p : Params) {c : ConfigRequest} (h : c.legal = true) :
    create p c = some (State.fresh p (heldConfig c)) := if_pos h

theorem create_eq_none_iff (p : Params) (c : ConfigRequest) : create p c = none ↔ ¬ c.legal = true := by
  simp [create]

theorem heldConfig_legal {c : ConfigRequest} (h : c.legal = true) : (heldConfig c).legal := by
  obtain ⟨hinstr, hframe, hbeep⟩ := (configRequest_legal_iff c).1 h
  exact ⟨(toNat_num_of_positiveInteger hinstr).2, (toNat_num_of_positiveInteger hframe).2, hbeep⟩

/-- Settles O60. -/
theorem createRefusesBadConfigurations : Obligations.CreateRefusesBadConfigurations := by
  intro p c
  rw [create_eq_none_iff, configRequest_legal_iff, positiveInteger_iff, positiveInteger_iff]

/-- A fresh core reads as its reset bytes everywhere (R43, R331). -/
theorem State.readByte_fresh (p : Params) (c : HostConfig) (a : Nat) :
    (State.fresh p c).readByte a = resetByte p a := rfl

/-- A fresh core meets the invariant (R43, R331). -/
theorem State.fresh_wf (p : Params) (c : HostConfig) (hp : p.legal) (hc : c.legal) : (State.fresh p c).Wf := by
  have hcount : ∀ a : Stream, ((State.fresh p c).done a : Rat) ≤ (State.fresh p c).time * (State.fresh p c).rate a := by
    intro a
    have hdone : (State.fresh p c).done a = 0 := by cases a <;> rfl
    have htime : (State.fresh p c).time = 0 := rfl
    simp [hdone, htime]
  refine ⟨⟨List.Pairwise.nil, fun c hc => by cases hc⟩, Nat.zero_le 16, hc, hp, le_refl _,
    ⟨hcount .instr, hcount .tick, hcount .frame⟩, by simp [State.fresh], fun _ => rfl⟩

/-- Settles O21: the reset state is a fresh core with the decided parameters and the default configuration. -/
theorem resetMeetsTheInvariant : Obligations.ResetMeetsTheInvariant := by
  refine ⟨State.fresh_wf _ _ (by decide) (by decide), ⟨rfl, rfl⟩, ?_⟩
  exact fun a _ => State.readByte_fresh decidedParams defaultConfig a

/-- The load of an image that fits copies it and nothing else but the record of its length (R300). -/
theorem State.load_of_fits (s : State) (image : List Byte) (h : image.length ≤ capacity s.params) :
    s.load image = { s with
      mem := (s.writeBytes s.params.loadOffset image).mem
      ctl := .running
      written := { s.written with programLength := image.length } } := by
  rw [State.load, if_neg (by omega), State.writeBytes_eq]

/-- A fresh core's memory after the load: the font, the image and zeros, each in its place; the font ends below the
image (R43, R64, R331). -/
theorem readByte_writeBytes_fresh (p : Params) (c : HostConfig) (image : List Byte) (hp : p.legal)
    (h : p.loadOffset + image.length ≤ memSize) (a : Nat) :
    ((State.fresh p c).writeBytes p.loadOffset image).readByte a =
      if p.fontBase ≤ a ∧ a < p.fontBase + 80 then fontBytes.getD (a - p.fontBase) 0x00#8
      else if p.loadOffset ≤ a ∧ a < p.loadOffset + image.length then image.getD (a - p.loadOffset) 0x00#8
      else 0x00#8 := by
  obtain ⟨hfont, -⟩ := hp
  have hmem : Memory.wf (State.fresh p c).params (State.fresh p c).mem :=
    ⟨List.Pairwise.nil, fun c hc => by cases hc⟩
  rw [State.readByte_writeBytes _ _ _ _ hmem h, State.readByte_fresh, resetByte]
  simp only [inFont, Bool.and_eq_true, decide_eq_true_eq]
  by_cases himage : p.loadOffset ≤ a ∧ a < p.loadOffset + image.length
  · rw [if_pos himage, if_neg (by omega), if_pos himage]
  · rw [if_neg himage, if_neg himage]

/-- Settles O58: a fresh core, and the image copied into its memory. -/
theorem resetValuesAfterLoad : Obligations.ResetValuesAfterLoad := by
  intro p c image hp hc himage
  obtain ⟨hinstr, hframe, -⟩ := (configRequest_legal_iff c).1 hc
  have htop : p.loadOffset + image.length ≤ memSize := by
    have := hp.2
    simp only [memSize]
    omega
  obtain ⟨hmem, hrest⟩ := State.fresh_wf p (heldConfig c) hp (heldConfig_legal hc)
  have hmem' := State.writeBytes_wf (State.fresh p (heldConfig c)) p.loadOffset image hmem htop
  rw [State.writeBytes_params] at hmem'
  have hboot : boot p c image = some ((State.fresh p (heldConfig c)).load image) := by
    rw [boot, create_of_legal p hc, Option.map_some]
  refine ⟨_, hboot, ?_⟩
  rw [State.load_of_fits _ _ himage]
  refine ⟨?_, fun r => ?_, rfl, rfl, fun j hj => ?_, rfl, rfl, fun px py => pixel_clearedFb px py, fun k => ?_,
    fun a _ => ?_, rfl, rfl, rfl, rfl, rfl, rfl, rfl,
    (toNat_num_of_positiveInteger hinstr).1, (toNat_num_of_positiveInteger hframe).1, rfl, rfl, rfl, hmem', hrest⟩
  · have := hp.2
    exact Nat.mod_eq_of_lt (by omega)
  · simp [State.reg, State.fresh]
  · simp [State.fresh, hj]
  · simp [State.isPressed, State.fresh]
  · have hbyte := readByte_writeBytes_fresh p (heldConfig c) image hp htop a
    rw [State.writeBytes_eq] at hbyte
    exact hbyte

end Sys2Proof.Machine

/-! PROOFS. Memory: the protected bytes, the lowest failing address of an access, and the fetch (20_memory R63 to R72,
30_encoding R92, 60_exceptions R271). -/

namespace Sys2Proof.Machine

/-! ## The protected bytes -/

/-- Every byte of `s` below `LOAD_OFFSET` reads the same in `t` (R66). -/
def KeepsLow (s t : State) : Prop := ∀ a, a < s.params.loadOffset → t.readByte a = s.readByte a

/-- A step that leaves the parameters and the memory alone leaves the protected bytes alone. -/
theorem KeepsLow.of_mem_eq {s t : State} (hp : t.params = s.params) (hm : t.mem = s.mem) : KeepsLow s t := fun a _ => by
  rw [State.readByte, hp, hm, ← State.readByte]

/-- A checked access keeps the protected bytes if its effect does, since the fault entry touches no memory (R72). -/
theorem KeepsLow.checked {s t : State} {bad : Option Nat} (h : bad = none → KeepsLow s t) :
    KeepsLow s (s.checked bad t) := by
  rcases s.checked_cases t bad with ⟨hbad, e⟩ | ⟨a, -, e⟩ <;> rw [e]
  · exact h hbad
  · exact .of_mem_eq rfl rfl

/-- A store that passes its check starts at or above `LOAD_OFFSET`, and so stores no protected byte (R66). -/
theorem KeepsLow.writeBytes {s : State} (hprot : s.params.protectLow = true) {a : Nat} {bs : List Byte}
    (hbad : s.badWrite a bs.length = none) : KeepsLow s (s.writeBytes a bs) := fun c hc =>
  s.readByte_writeBytes_out a c bs fun ⟨hle, hlt⟩ => by
    obtain ⟨-, hlow⟩ := s.badWrite_none_inv a bs.length hbad (by omega)
    have := hlow hprot
    omega

/-- An instruction keeps the protected bytes: only FX33 and FX55 store at all, and both check every address first (R61,
R66, R72). -/
theorem exec_keepsLow {i : Instr} {s t : State} (hprot : s.params.protectLow = true) (hexec : exec i s = .next t) :
    KeepsLow s t := by
  by_cases hstores : ∀ x, i ≠ .ldB x ∧ i ≠ .store x
  · obtain ⟨hbytes, -⟩ := eachPartHasOnlyItsWriters i s t hexec
    exact fun a _ => hbytes hstores a
  · simp only [not_forall, not_and_or, not_not] at hstores
    rcases hstores with ⟨x, rfl | rfl⟩ <;> cases hexec
    · exact .checked fun hbad => KeepsLow.writeBytes hprot hbad
    · have hlen : ((regsUpTo x).map s.reg).length = x.toNat + 1 := by simp
      exact .checked fun hbad => KeepsLow.writeBytes hprot (hlen ▸ hbad)

/-- The executor's step keeps the protected bytes: beside its instruction it writes only the record, a fault or a
refusal (R283). -/
theorem cpuStep_keepsLow {s t : State} (hprot : s.params.protectLow = true) (hstep : cpuStep s = .next t) :
    KeepsLow s t := by
  unfold cpuStep at hstep
  split at hstep
  next => cases hstep; exact .of_mem_eq rfl rfl
  next i _ =>
    split at hstep
    · cases hstep; exact .of_mem_eq rfl rfl
    · obtain ⟨u, hexec, -⟩ := exec_ends i s
      obtain ⟨w, hnote, -⟩ := noteWritten_next s u i
      rw [hexec, hnote] at hstep
      cases hstep
      have hkeeps : KeepsLow s u := exec_keepsLow hprot hexec
      exact hkeeps

/-- A call of the host writes no memory (R250, R255, R286). -/
theorem State.hostCall_keepsLow (s : State) (c : HostCall) : KeepsLow s (s.hostCall c) := by
  rcases s.hostCall_cases c with ⟨num, den, -, e⟩ | ⟨k, p, -, e⟩ | ⟨k, x, -, -, -, e⟩ <;>
    rw [e] <;> exact .of_mem_eq rfl rfl

/-- A step keeps the protected bytes, form by form: only an instruction slot of a running core reaches a store. -/
theorem step_keepsLow {s t : State} (hprot : s.params.protectLow = true) (hstep : step s = .next t) : KeepsLow s t := by
  cases step_moves s t hstep with
  | runs u hlive hpick hrun _ =>
    rw [step_eq_cpuStep s u hlive hpick hrun] at hstep
    exact cpuStep_keepsLow (s := { s with ties := u.ties, nInstr := s.nInstr + 1 }) hprot hstep
  | waits u hpick h => obtain ⟨-, k, rfl⟩ := s.pick_due u _ hpick; subst h; exact .of_mem_eq rfl rfl
  | ticks u hpick h => obtain ⟨-, k, rfl⟩ := s.pick_due u _ hpick; subst h; exact .of_mem_eq rfl rfl
  | shows u hpick h => obtain ⟨-, k, rfl⟩ := s.pick_due u _ hpick; subst h; exact .of_mem_eq rfl rfl
  | calls c rest h => subst h; exact State.hostCall_keepsLow { s with calls := rest } c
  | idles h => subst h; exact .of_mem_eq rfl rfl

/-- Settles O24: the protected bytes are kept, and the parameters that say what they were at reset are too. -/
theorem protectedMemoryNeverChanges : Obligations.ProtectedMemoryNeverChanges := by
  intro s t hprot hstep
  have hkeeps := step_keepsLow hprot hstep
  obtain ⟨-, hparams⟩ := configurationNeverChanges s t hstep
  refine ⟨hkeeps, fun hlow a ha => ?_⟩
  rw [hparams] at ha ⊢
  exact (hkeeps a ha).trans (hlow a ha)

/-! ## The lowest failing address -/

/-- The fault entry is the one that the statements read (R276). -/
theorem State.halts_raise (s : State) (c : FaultCause) : Halts c s (s.raise c) := ⟨rfl, rfl, rfl⟩

/-- A checked access with a failing address halts with it, whatever its effect would have been (R72). -/
theorem State.halts_checked (s t : State) {bad : Option Nat} {a : Nat} (h : bad = some a) :
    Halts (.addressOutOfRange a) s (s.checked bad t) := by
  rw [h, s.checked_some t a]
  exact s.halts_raise _

/-- Settles O50: each of the four is a checked access. -/
theorem lowestFailingAddressIsReported : Obligations.LowestFailingAddressIsReported := by
  refine fun s x y n a => ⟨fun h => ?_, fun h => ?_, fun h => ?_, fun hn h => ?_⟩
  · exact ⟨_, rfl, s.halts_checked _ (s.badWrite_eq_some _ _ _ h)⟩
  · exact ⟨_, rfl, s.halts_checked _ (s.badWrite_eq_some _ _ _ h)⟩
  · exact ⟨_, rfl, s.halts_checked _ (s.badRead_eq_some _ _ _ h)⟩
  · refine ⟨_, rfl, ?_⟩
    rw [if_neg hn]
    exact s.halts_checked _ (s.badRead_eq_some _ _ _ h)

/-! ## The fetch -/

/-- A fetch from an odd `PC` or from one above 4094 fails at that address (R70, R92). -/
theorem State.fetchDecode_bad_pc (s : State) (h : s.pc.toNat % 2 = 1 ∨ s.pc.toNat > 4094) :
    s.fetchDecode = .error (.addressOutOfRange s.pc.toNat) := by
  have hfetch : s.fetch = .error (.addressOutOfRange s.pc.toNat) := if_pos (by omega)
  simp only [State.fetchDecode, hfetch]

/-- The executor's step whose fetch or decoding fails is the entry of that fault (R276, R283). -/
theorem cpuStep_of_fetchDecode_error (s : State) (c : FaultCause) (h : s.fetchDecode = .error c) :
    cpuStep s = .next (s.raise c) := by
  simp only [cpuStep, h]

/-- Settles O6: the counted state, where the executor steps, has the `PC` and the signals of `s`. -/
theorem fetchHaltsAtABadProgramCounter : Obligations.FetchHaltsAtABadProgramCounter := by
  intro s u hlive hpick hrun hpc
  rw [step_eq_cpuStep s u hlive hpick hrun]
  have hfetch := State.fetchDecode_bad_pc { s with ties := u.ties, nInstr := s.nInstr + 1 } hpc
  exact ⟨_, cpuStep_of_fetchDecode_error _ _ hfetch, State.halts_raise _ _⟩

end Sys2Proof.Machine

/-! PROOFS. The encoding: the fields of a word, the decoder said once as the row its word selects or its place in R95's
list, and the step that follows the decoding (30_encoding R91 to R100, 60_exceptions R274, R283, R287). -/

namespace Sys2Proof

/-! ## The fields of a word, and the word of its fields (R91) -/

section Fields

open BitVec

variable (op : BitVec 4) (x y : RegIdx) (n : BitVec 4) (nn : Byte) (nnn : Addr12)

@[simp] theorem fieldOp_wordNNN : fieldOp (wordNNN op nnn) = op := extractLsb'_append_eq_left

@[simp] theorem fieldNNN_wordNNN : fieldNNN (wordNNN op nnn) = nnn := extractLsb'_append_eq_right

@[simp] theorem fieldOp_wordXNN : fieldOp (wordXNN op x nn) = op :=
  (extractLsb'_append_eq_of_le (by decide)).trans extractLsb'_append_eq_left

@[simp] theorem fieldX_wordXNN : fieldX (wordXNN op x nn) = x :=
  (extractLsb'_append_eq_of_le (by decide)).trans extractLsb'_append_eq_right

@[simp] theorem fieldNN_wordXNN : fieldNN (wordXNN op x nn) = nn := extractLsb'_append_eq_right

@[simp] theorem fieldOp_wordXYN : fieldOp (wordXYN op x y n) = op :=
  calc fieldOp (wordXYN op x y n)
    _ = (op ++ x ++ y).extractLsb' 8 4 := extractLsb'_append_eq_of_le (by decide)
    _ = (op ++ x).extractLsb' 4 4 := extractLsb'_append_eq_of_le (by decide)
    _ = op := extractLsb'_append_eq_left

@[simp] theorem fieldX_wordXYN : fieldX (wordXYN op x y n) = x :=
  calc fieldX (wordXYN op x y n)
    _ = (op ++ x ++ y).extractLsb' 4 4 := extractLsb'_append_eq_of_le (by decide)
    _ = (op ++ x).extractLsb' 0 4 := extractLsb'_append_eq_of_le (by decide)
    _ = x := extractLsb'_append_eq_right

@[simp] theorem fieldY_wordXYN : fieldY (wordXYN op x y n) = y :=
  (extractLsb'_append_eq_of_le (by decide)).trans extractLsb'_append_eq_right

@[simp] theorem fieldN_wordXYN : fieldN (wordXYN op x y n) = n := extractLsb'_append_eq_right

end Fields

section Words

open BitVec

variable {w : Half} {op : BitVec 4}

/-- A word is its `op` and its `NNN`. -/
theorem wordNNN_fields (hop : (fieldOp w).toNat = op.toNat) : wordNNN op (fieldNNN w) = w := by
  rw [← eq_of_toNat_eq hop]
  exact (extractLsb'_append_extractLsb'_eq_extractLsb' rfl).trans extractLsb'_eq_self

/-- A word is its `op`, its `X` and its `NN`. -/
theorem wordXNN_fields {nn : Byte} (hop : (fieldOp w).toNat = op.toNat) (hnn : (fieldNN w).toNat = nn.toNat) :
    wordXNN op (fieldX w) nn = w := by
  have hopX : fieldOp w ++ fieldX w = w.extractLsb' 8 8 := extractLsb'_append_extractLsb'_eq_extractLsb' rfl
  rw [← eq_of_toNat_eq hop, ← eq_of_toNat_eq hnn, wordXNN, hopX]
  exact (extractLsb'_append_extractLsb'_eq_extractLsb' rfl).trans extractLsb'_eq_self

/-- A word is its `op`, its `X`, its `Y` and its `N`. -/
theorem wordXYN_fields {n : BitVec 4} (hop : (fieldOp w).toNat = op.toNat) (hn : (fieldN w).toNat = n.toNat) :
    wordXYN op (fieldX w) (fieldY w) n = w := by
  have hopX : fieldOp w ++ fieldX w = w.extractLsb' 8 8 := extractLsb'_append_extractLsb'_eq_extractLsb' rfl
  have hopXY : w.extractLsb' 8 8 ++ fieldY w = w.extractLsb' 4 12 := extractLsb'_append_extractLsb'_eq_extractLsb' rfl
  rw [← eq_of_toNat_eq hop, ← eq_of_toNat_eq hn, wordXYN, hopX, hopXY]
  exact (extractLsb'_append_extractLsb'_eq_extractLsb' rfl).trans extractLsb'_eq_self

end Words

theorem toNat_fieldOp (w : Half) : (fieldOp w).toNat = w.toNat / 4096 := by
  have := w.isLt
  simp only [fieldOp, BitVec.extractLsb'_toNat, Nat.shiftRight_eq_div_pow]
  omega

theorem toNat_fieldN (w : Half) : (fieldN w).toNat = w.toNat % 16 := by simp [fieldN]

theorem toNat_fieldNN (w : Half) : (fieldNN w).toNat = w.toNat % 256 := by simp [fieldNN]

/-! ## The decoder -/

/-- Settles O2: the fields of a row's word are the operands that the row was written with. -/
theorem decodeOfEncode : Obligations.DecodeOfEncode := by
  intro i
  cases i with
  | cls | ret => rfl
  | jp | call | ldI | jpV0 | seImm | sneImm | ldImm | addImm | rnd | seReg | sneReg | drw => simp [encode, decode]
  | ldReg | orReg | andReg | xorReg | addReg | sub | shr | subn | shl => simp [encode, decode, decodeGroup8]
  | skp | sknp => simp [encode, decode, decodeGroupE]
  | ldFromDt | ldKey | ldDt | ldSt | addI | ldF | ldB | store | load => simp [encode, decode, decodeGroupF]

/-- The six rows of R95's list, by the fields of the word. -/
def SelectsNoRow (w : Half) : Prop :=
  ((fieldOp w).toNat = 0x0 ∧ w.toNat ≠ 0x00E0 ∧ w.toNat ≠ 0x00EE) ∨ ((fieldOp w).toNat = 0x5 ∧ (fieldN w).toNat ≠ 0) ∨
    ((fieldOp w).toNat = 0x8 ∧ (fieldN w).toNat ∈ [0x8, 0x9, 0xA, 0xB, 0xC, 0xD, 0xF]) ∨
    ((fieldOp w).toNat = 0x9 ∧ (fieldN w).toNat ≠ 0) ∨ ((fieldOp w).toNat = 0xE ∧ (fieldNN w).toNat ∉ [0x9E, 0xA1]) ∨
    ((fieldOp w).toNat = 0xF ∧ (fieldNN w).toNat ∉ [0x07, 0x0A, 0x15, 0x18, 0x1E, 0x29, 0x33, 0x55, 0x65])

/-- What the decoder may answer to a word: the instruction whose word it is, when the word is not in R95's list, and
the rejection of the word by its own value, when it is. -/
inductive DecodeSpec (w : Half) : Except DecodeError Instr → Prop where
  | row {i : Instr} (hword : encode i = w) (hlisted : ¬ SelectsNoRow w) : DecodeSpec w (.ok i)
  | unknown (hlisted : SelectsNoRow w) : DecodeSpec w (.error (.unknownOpcode w))

section Groups

variable {w : Half}

/-- Group 0 is the SYS words but for its two rows (R96). -/
theorem decodeGroup0_spec (hop : (fieldOp w).toNat = 0x0) : DecodeSpec w (decodeGroup0 w) := by
  have hlisted : SelectsNoRow w ↔ w ≠ 0x00E0#16 ∧ w ≠ 0x00EE#16 := by
    simp [SelectsNoRow, hop, ← BitVec.toNat_inj]
  unfold decodeGroup0
  split
  next hcls => exact .row hcls.symm fun h => (hlisted.1 h).1 hcls
  next hcls =>
    split
    next hret => exact .row hret.symm fun h => (hlisted.1 h).2 hret
    next hret => exact .unknown (hlisted.2 ⟨hcls, hret⟩)

/-- Groups 5 and 9 hold one row each, with `N` zero. -/
theorem zeroMinor_spec {op : BitVec 4} {i : Instr} (hop : (fieldOp w).toNat = op.toNat) (hone : op = 0x5#4 ∨ op = 0x9#4)
    (hword : encode i = wordXYN op (fieldX w) (fieldY w) 0#4) :
    DecodeSpec w (if fieldN w = 0#4 then .ok i else .error (.unknownOpcode w)) := by
  have hlisted : SelectsNoRow w ↔ fieldN w ≠ 0#4 := by
    rcases hone with rfl | rfl <;> simp [SelectsNoRow, hop, ← BitVec.toNat_inj]
  split
  next hn => exact .row (hword.trans (wordXYN_fields hop (hn ▸ rfl))) fun h => hlisted.1 h hn
  next hn => exact .unknown (hlisted.2 hn)

/-- Group 8 has its nine rows by `N`, and R95 lists the other seven values. -/
theorem decodeGroup8_spec (hop : (fieldOp w).toNat = 0x8) : DecodeSpec w (decodeGroup8 w) := by
  have hlisted : SelectsNoRow w ↔ (fieldN w).toNat ∈ [0x8, 0x9, 0xA, 0xB, 0xC, 0xD, 0xF] := by
    simp [SelectsNoRow, hop]
  unfold decodeGroup8
  split
  case h_10 =>
    have hlt := (fieldN w).isLt
    exact .unknown (hlisted.2 (by simp only [List.mem_cons, List.not_mem_nil]; grind))
  all_goals
    next hn => exact .row (wordXYN_fields hop hn) (by simp [hlisted, hn])

/-- Group E has its two rows by `NN`. -/
theorem decodeGroupE_spec (hop : (fieldOp w).toNat = 0xE) : DecodeSpec w (decodeGroupE w) := by
  have hlisted : SelectsNoRow w ↔ (fieldNN w).toNat ∉ [0x9E, 0xA1] := by simp [SelectsNoRow, hop]
  unfold decodeGroupE
  split
  case h_3 => exact .unknown (hlisted.2 (by grind))
  all_goals
    next hnn => exact .row (wordXNN_fields hop hnn) (by simp [hlisted, hnn])

/-- Group F has its nine rows by `NN`. -/
theorem decodeGroupF_spec (hop : (fieldOp w).toNat = 0xF) : DecodeSpec w (decodeGroupF w) := by
  have hlisted : SelectsNoRow w ↔ (fieldNN w).toNat ∉ [0x07, 0x0A, 0x15, 0x18, 0x1E, 0x29, 0x33, 0x55, 0x65] := by
    simp [SelectsNoRow, hop]
  unfold decodeGroupF
  split
  case h_10 => exact .unknown (hlisted.2 (by simp only [List.mem_cons, List.not_mem_nil]; grind))
  all_goals
    next hnn => exact .row (wordXNN_fields hop hnn) (by simp [hlisted, hnn])

/-- The decoder group by group: the answers of the groups with a minor opcode, and a row for each other value of `op`
(R94, R100). -/
theorem decode_spec (w : Half) : DecodeSpec w (decode w) := by
  unfold decode
  split
  -- the groups with a minor opcode: 0, 5, 8, 9, E, F
  case h_1 hop => exact decodeGroup0_spec hop
  case h_6 hop => exact zeroMinor_spec (op := 0x5#4) hop (.inl rfl) rfl
  case h_9 hop => exact decodeGroup8_spec hop
  case h_10 hop => exact zeroMinor_spec (op := 0x9#4) hop (.inr rfl) rfl
  case h_15 hop => exact decodeGroupE_spec hop
  case h_16 => exact decodeGroupF_spec (by have := (fieldOp w).isLt; grind)
  -- the rows `op NNN` (1, 2, A, B), `op X NN` (3, 4, 6, 7, C) and `op X Y N` (D)
  case h_2 hop | h_3 hop | h_11 hop | h_12 hop => exact .row (wordNNN_fields hop) (by simp [SelectsNoRow, hop])
  case h_4 hop | h_5 hop | h_7 hop | h_8 hop | h_13 hop =>
    exact .row (wordXNN_fields hop rfl) (by simp [SelectsNoRow, hop])
  case h_14 hop => exact .row (wordXYN_fields hop rfl) (by simp [SelectsNoRow, hop])

end Groups

/-- Settles O3: an answer that is an instruction is the instruction of the word. -/
theorem encodeOfDecode : Obligations.EncodeOfDecode := by
  intro w i hdec
  have hspec := decode_spec w
  rw [hdec] at hspec
  cases hspec with
  | row hword _ => exact hword

/-- Settles O4: R95's list in numbers is the list by fields, where the decoder's answer is known. -/
theorem unknownWordsAreExactlyTheListed : Obligations.UnknownWordsAreExactlyTheListed := by
  intro w
  have hsys : w.toNat ≤ 0x0FFF ↔ (fieldOp w).toNat = 0x0 := by rw [toNat_fieldOp]; omega
  simp only [hsys, ← toNat_fieldOp, ← toNat_fieldN, ← toNat_fieldNN]
  show (_ ↔ SelectsNoRow w) ∧ _
  have hspec := decode_spec w
  generalize decode w = r at hspec ⊢
  cases hspec with
  | row hword hlisted => simp [hlisted]
  | unknown hlisted => simp [hlisted]

/-- Settles O1: the decoder runs on each of the thirteen words. -/
theorem writtenOutWordsDecode : Obligations.WrittenOutWordsDecode := by
  unfold Obligations.WrittenOutWordsDecode
  decide

end Sys2Proof

namespace Sys2Proof.Machine

/-- Settles O5: the step is the executor's at the counted state, where the fetch and the check are those of `s`. -/
theorem stepRunsTheDecodedInstruction : Obligations.StepRunsTheDecodedInstruction := by
  intro s u i hlive hpick hrun heven htop hdec hun
  obtain ⟨-, hu, -⟩ := s.pick_some u .instr hpick
  have hcounted : { u with nInstr := u.nInstr + 1 } = { s with ties := u.ties, nInstr := s.nInstr + 1 } := by rw [hu]
  have hfetch := State.fetchDecode_ok { s with ties := u.ties, nInstr := s.nInstr + 1 } i heven htop hdec
  have hstep : step s = noteWritten { u with nInstr := u.nInstr + 1 } i (exec i { u with nInstr := u.nInstr + 1 }) := by
    rw [step_eq_cpuStep s u hlive hpick hrun, hcounted]
    exact cpuStep_of_initialised _ i hfetch hun
  refine ⟨hu, hstep, fun t hexec => ?_⟩
  obtain ⟨w, hw, hkeep, -⟩ := noteWritten_next { u with nInstr := u.nInstr + 1 } t i
  exact ⟨w, by rw [hstep, hexec, hw], hkeep⟩

/-- A fetch from an even `PC` of at most 4094 whose word does not decode is the fault of that word (R92, R274). -/
theorem State.fetchDecode_unknown (s : State) {e : DecodeError} (heven : s.pc.toNat % 2 = 0) (htop : s.pc.toNat ≤ 4094)
    (hdec : decode (wordOfBytes (s.readByte s.pc.toNat) (s.readByte (s.pc.toNat + 1))) = .error e) :
    s.fetchDecode =
      .error (.unknownOpcode (wordOfBytes (s.readByte s.pc.toNat) (s.readByte (s.pc.toNat + 1)))) := by
  have hfetch : s.fetch = .ok (wordOfBytes (s.readByte s.pc.toNat) (s.readByte (s.pc.toNat + 1))) :=
    if_neg (by omega)
  simp only [State.fetchDecode, hfetch, hdec]

/-- Settles O7: the executor's step of an undecodable word is the entry of its fault, at the counted state. -/
theorem unknownWordHaltsTheStep : Obligations.UnknownWordHaltsTheStep := by
  intro s u w hlive hpick hrun heven htop hw hnone
  subst hw
  rw [step_eq_cpuStep s u hlive hpick hrun]
  cases hdec : decode (wordOfBytes (s.readByte s.pc.toNat) (s.readByte (s.pc.toNat + 1))) with
  | ok i => exact absurd hdec (hnone i)
  | error e =>
    have hfetch := State.fetchDecode_unknown { s with ties := u.ties, nInstr := s.nInstr + 1 } heven htop hdec
    exact ⟨_, cpuStep_of_fetchDecode_error _ _ hfetch, State.halts_raise _ _⟩

end Sys2Proof.Machine

/-! PROOFS. Control flow: RET and CALL said once as what they do in each case of the stack, the skips said once for
every condition, and the statements about jumps, skips and the stack (40_control_flow R121 to R128, 10_state R31,
R32). -/

namespace Sys2Proof.Machine

/-! ## RET and CALL by the case of the stack -/

/-- RET on an empty stack is the entry of `StackUnderflow` (R32, R121). -/
theorem exec_ret_of_empty (s : State) (h : s.sp.toNat = 0) : exec .ret s = .next (s.raise .stackUnderflow) := by
  have hsp : s.sp = 0x00#8 := BitVec.eq_of_toNat_eq h
  simp only [exec, execRet, s.pop_none hsp]

/-- RET on a stack of 1 to 16 entries goes to the top one (R32, R121). -/
theorem exec_ret_of_nonempty (s : State) (hpos : 0 < s.sp.toNat) (h16 : s.sp.toNat ≤ 16) :
    exec .ret s = .next ((s.setStack s.stack (s.sp - 1#8)).setPc s.stack[s.sp.toNat - 1]) := by
  have hsp : s.sp ≠ 0x00#8 := fun e => by simp [e] at hpos
  simp only [exec, execRet, s.pop_some hsp h16]

/-- CALL on a full stack is the entry of `StackOverflow` (R31, R123). -/
theorem exec_call_of_full (s : State) (nnn : Addr12) (h : 16 ≤ s.sp.toNat) :
    exec (.call nnn) s = .next (s.raise .stackOverflow) := by
  simp only [exec, execCall, s.push_none s.pcNext h]

/-- CALL below the full stack puts `PCnext` on it and goes to its target (R31, R123). -/
theorem exec_call_of_room (s : State) (nnn : Addr12) (h : s.sp.toNat < 16) :
    exec (.call nnn) s =
      .next ((s.setStack (s.stack.set s.sp.toNat s.pcNext h) (s.sp + 1#8)).setPc (address nnn)) := by
  simp only [exec, execCall, s.push_some s.pcNext h]

/-- Settles O33: the two cases of the stack. -/
theorem retPopsOrUnderflows : Obligations.RetPopsOrUnderflows := by
  refine fun s => ⟨fun hempty => ?_, fun hpos h16 => ?_⟩
  · exact ⟨_, exec_ret_of_empty s hempty, s.halts_raise _⟩
  · have hsp : (s.sp - 1#8).toNat = s.sp.toNat - 1 := by bv_omega
    exact ⟨_, exec_ret_of_nonempty s hpos h16, hsp, Vector.getElem?_eq_getElem _, rfl,
      ((Frame.refl _ s).setStack rfl _ _).setPc _⟩

/-- Settles O34: the two cases of the stack; the entry written is the one at `SP`. -/
theorem callPushesOrOverflows : Obligations.CallPushesOrOverflows := by
  refine fun s nnn => ⟨fun hfull => ?_, fun hroom => ?_⟩
  · exact ⟨_, exec_call_of_full s nnn hfull.ge, s.halts_raise _⟩
  · have hsp : (s.sp + 1#8).toNat = s.sp.toNat + 1 := by bv_omega
    exact ⟨_, exec_call_of_room s nnn hroom, hsp, address_toNat nnn, Vector.getElem?_set_self hroom,
      fun j hj => Vector.getElem?_set_ne hroom hj.symm, ((Frame.refl _ s).setStack rfl _ _).setPc _⟩

/-- Settles O35: RET pops the entry that CALL pushed, and the entries below it are those that CALL left alone. -/
theorem retUndoesCall : Obligations.RetUndoesCall := by
  intro s t nnn hroom hcall
  obtain ⟨-, hpush⟩ := callPushesOrOverflows s nnn
  obtain ⟨t', hcall', htsp, -, htop, hbelow, -⟩ := hpush hroom
  cases hcall.symm.trans hcall'
  obtain ⟨-, hpop⟩ := retPopsOrUnderflows t
  obtain ⟨u, hret, husp, hupc, hustack, -⟩ := hpop (by omega) (by omega)
  have hsp : t.sp.toNat - 1 = s.sp.toNat := by omega
  rw [hsp] at husp hupc
  refine ⟨u, hret, ?_, BitVec.eq_of_toNat_eq husp, fun j hj => ?_⟩
  · have hpc : u.pc = s.pcNext := Option.some.inj (hupc.symm.trans htop)
    rw [Advances, hpc, s.pcNext_toNat]
  · rw [hustack, hbelow j hj.ne]

/-! ## Jumps and skips -/

/-- Settles O36: both jumps only set `PC`, to the target that R122 and R124 say. -/
theorem jumpsGoToTheirTargets : Obligations.JumpsGoToTheirTargets := by
  refine fun s nnn => ⟨?_, ?_⟩
  · exact ⟨_, rfl, address_toNat nnn, (Frame.refl _ s).setPc _⟩
  · exact ⟨_, rfl, offsetTarget_toNat nnn (s.reg 0x0#4), (Frame.refl _ s).setPc _⟩

/-- The last action of a skip goes over one word exactly when its condition holds (R25, R26, R120). -/
theorem State.skips_skipIf (s : State) (c : Prop) [Decidable c] : Skips c s (s.skipIf (decide c)) := by
  refine ⟨fun hc => ?_, fun hc => ?_⟩
  · rw [State.skipIf_pc, if_pos (decide_eq_true hc), s.pcSkip_toNat]
  · rw [State.skipIf_pc, if_neg (by simpa using hc), s.pcNext_toNat]

/-- Settles O37: the words are those of the encoder, and the meaning of each is the last action of a skip on its own
comparison. -/
theorem skipsFollowTheirConditions : Obligations.SkipsFollowTheirConditions := by
  intro s x y nn
  have hframe (c : Bool) : Frame {} s (s.skipIf c) := (Frame.refl _ s).skipIf c
  refine ⟨⟨?_, ?_, ?_, ?_⟩, ?_, ?_, ?_, ?_⟩
  · exact decodeOfEncode (.seImm x nn)
  · exact decodeOfEncode (.sneImm x nn)
  · exact decodeOfEncode (.seReg x y)
  · exact decodeOfEncode (.sneReg x y)
  · exact ⟨_, rfl, s.skips_skipIf (s.reg x = nn), hframe _⟩
  · exact ⟨_, rfl, s.skips_skipIf (s.reg x ≠ nn), hframe _⟩
  · exact ⟨_, rfl, s.skips_skipIf (s.reg x = s.reg y), hframe _⟩
  · exact ⟨_, rfl, s.skips_skipIf (s.reg x ≠ s.reg y), hframe _⟩

end Sys2Proof.Machine

/-! PROOFS. Registers, arithmetic and logic: a result written alone and a result written with its flag, said once as
what they do to the state; the flag conditions as numbers; and the statements about the instructions that are one of
the two (41_arith_logic R150 to R163, 10_state R36). -/

namespace Sys2Proof.Machine

/-! ## A result alone, and a result with its flag -/

section Effects

variable {x : RegIdx} {s t : State}

/-- An instruction's last action goes on from the `PC` it found when its other actions left `PC` alone (R12, R26). -/
theorem State.advances_advance (h : t.pc = s.pc) : Advances s t.advance := by
  rw [Advances, State.advance_pc, t.pcNext_toNat, h]

/-- From `s` to `t` an instruction has written `b` to `V[x]`, changed nothing else and gone on (R152 to R154). -/
structure WritesResult (x : RegIdx) (b : Byte) (s t : State) : Prop where
  result : t.reg x = b
  advances : Advances s t
  frame : Frame { regs := [x] } s t

/-- From `s` to `t` an instruction has written `b` to `V[x]` and then the flag `f` to `VF`, where the flag wins with
`x = F`; it changed nothing else and went on (R151, D13). -/
structure WritesFlagged (x : RegIdx) (b f : Byte) (s t : State) : Prop where
  result : x ≠ VF → t.reg x = b
  flag : t.reg VF = f
  advances : Advances s t
  frame : Frame { regs := [x, VF] } s t

theorem State.writesResult_setReg (s : State) (x : RegIdx) (b : Byte) :
    WritesResult x b s (s.setReg x b).advance where
  result := s.reg_setReg_self x b
  advances := State.advances_advance rfl
  frame := ((Frame.refl _ s).setReg (List.mem_singleton_self x) b).advance

theorem State.writesFlagged_setRegFlag (s : State) (x : RegIdx) (b f : Byte) :
    WritesFlagged x b f s (s.setRegFlag x b f).advance where
  result := fun hx => by rw [State.reg_advance, State.reg_setRegFlag, if_neg hx, if_pos rfl]
  flag := by rw [State.reg_advance, State.reg_setRegFlag, if_pos rfl]
  advances := State.advances_advance rfl
  frame := ((Frame.refl _ s).setRegFlag (by simp) (by simp) b f).advance

/-- Without `LOGIC_CLEARS_VF` a logic result is a result alone (D12). -/
theorem State.setRegLogic_of_keeps (h : s.params.logicClearsVF = false) (b : Byte) :
    s.setRegLogic x b = s.setReg x b := by simp [State.setRegLogic, h]

/-- Under `LOGIC_CLEARS_VF` a logic result is a result with the flag 0 (D12). -/
theorem State.setRegLogic_of_clears (h : s.params.logicClearsVF = true) (b : Byte) :
    s.setRegLogic x b = s.setRegFlag x b 0x00#8 := by simp [State.setRegLogic, h]

theorem State.setRegLogic_pc (s : State) (x : RegIdx) (b : Byte) : (s.setRegLogic x b).pc = s.pc := by
  rw [s.setRegLogic_eq x b]

end Effects

/-! ## The results and the flags as numbers (R150, R36) -/

section Numbers

variable (a b : Byte)

/-- The difference of two bytes is the exact one modulo 256 (R150). -/
theorem toNat_sub_eq_emod : ((a - b).toNat : Int) = ((a.toNat : Int) - (b.toNat : Int)) % 256 := by
  have := a.isLt
  have := b.isLt
  rw [BitVec.toNat_sub]
  omega

theorem carryFlag_toNat : (carryFlag a b).toNat = if a.toNat + b.toNat > 255 then 1 else 0 := by
  simp only [carryFlag, flagByte_toNat, decide_eq_true_eq]

theorem noBorrowFlag_toNat : (noBorrowFlag a b).toNat = if a.toNat ≥ b.toNat then 1 else 0 := by
  simp only [noBorrowFlag, flagByte_toNat, decide_eq_true_eq]

/-- The flag of one bit of a byte is that bit as a number. -/
theorem flagByte_getLsbD_toNat (k : Nat) : (flagByte (a.getLsbD k)).toNat = a.toNat / 2 ^ k % 2 := by
  rw [flagByte_toNat, ← BitVec.testBit_toNat, Nat.testBit_eq_decide_div_mod_eq]
  obtain h | h := Nat.mod_two_eq_zero_or_one (a.toNat / 2 ^ k) <;> simp [h]

theorem shiftOutLow_toNat : (shiftOutLow a).toNat = a.toNat % 2 := by
  rw [shiftOutLow, flagByte_getLsbD_toNat, pow_zero, Nat.div_one]

theorem shiftOutHigh_toNat : (shiftOutHigh a).toNat = a.toNat / 128 := by
  have := a.isLt
  rw [shiftOutHigh, flagByte_getLsbD_toNat]
  omega

theorem toNat_ushiftRight_one : (a >>> 1).toNat = a.toNat / 2 := by
  rw [BitVec.toNat_ushiftRight, Nat.shiftRight_eq_div_pow, pow_one]

theorem toNat_shiftLeft_one : (a <<< 1).toNat = 2 * a.toNat % 256 := by
  rw [BitVec.toNat_shiftLeft, Nat.shiftLeft_eq, pow_one, Nat.mul_comm]

end Numbers

/-! ## The statements -/

/-- Settles O38: both loads are a result alone, and their words are those of the encoder. -/
theorem loadsOfRegisters : Obligations.LoadsOfRegisters := by
  intro s x y nn
  have himm := s.writesResult_setReg x nn
  have hreg := s.writesResult_setReg x (s.reg y)
  refine ⟨⟨?_, ?_⟩, ?_, ?_⟩
  · exact decodeOfEncode (.ldImm x nn)
  · exact decodeOfEncode (.ldReg x y)
  · exact ⟨_, rfl, himm.result, himm.advances, himm.frame⟩
  · exact ⟨_, rfl, hreg.result, hreg.advances, hreg.frame⟩

/-- Settles O39: the sum of two bytes is a result alone, so that `VF` lies in the frame unless it is `V[X]`. -/
theorem addImmediateWrapsWithoutFlag : Obligations.AddImmediateWrapsWithoutFlag := by
  intro s x nn
  have h := s.writesResult_setReg x (s.reg x + nn)
  refine ⟨decodeOfEncode (.addImm x nn), _, rfl, ?_, h.advances, h.frame⟩
  rw [h.result, BitVec.toNat_add]

/-- The three logic instructions write, as `LOGIC_CLEARS_VF` says, a byte whose bits are the function `f` of the two old
bits (R155 to R157). -/
theorem exec_logic (s : State) {x y : RegIdx} {i : Instr} {f : Bool → Bool → Bool}
    (h : (i = .orReg x y ∧ f = or) ∨ (i = .andReg x y ∧ f = and) ∨ (i = .xorReg x y ∧ f = xor)) :
    ∃ b : Byte, exec i s = .next (s.setRegLogic x b).advance ∧
      ∀ k, b.getLsbD k = f ((s.reg x).getLsbD k) ((s.reg y).getLsbD k) := by
  obtain ⟨rfl, rfl⟩ | ⟨rfl, rfl⟩ | ⟨rfl, rfl⟩ := h
  · exact ⟨_, rfl, fun _ => BitVec.getLsbD_or⟩
  · exact ⟨_, rfl, fun _ => BitVec.getLsbD_and⟩
  · exact ⟨_, rfl, fun _ => BitVec.getLsbD_xor⟩

/-- Settles O40: a logic result is a result alone or one with the flag 0, by the policy. -/
theorem logicActsBitwise : Obligations.LogicActsBitwise := by
  intro s x y i f hi
  obtain ⟨b, hexec, hbits⟩ := exec_logic s hi
  refine ⟨_, hexec, State.advances_advance (s.setRegLogic_pc x b), fun hkeeps => ?_, fun hclears => ?_⟩
  · rw [State.setRegLogic_of_keeps hkeeps]
    have h := s.writesResult_setReg x b
    exact ⟨fun k _ => by rw [h.result, hbits], h.frame⟩
  · rw [State.setRegLogic_of_clears hclears]
    have h := s.writesFlagged_setRegFlag x b 0x00#8
    exact ⟨fun hx k _ => by rw [h.result hx, hbits], h.flag, h.frame⟩

/-- Settles O41: a sum with its carry. -/
theorem addSetsCarry : Obligations.AddSetsCarry := by
  intro s x y
  have h := s.writesFlagged_setRegFlag x (s.reg x + s.reg y) (carryFlag (s.reg x) (s.reg y))
  refine ⟨_, rfl, fun hx => ?_, ?_, h.advances, h.frame⟩
  · rw [h.result hx, BitVec.toNat_add]
  · rw [h.flag, carryFlag_toNat]

/-- A difference written with its flag is the exact one modulo 256, and the flag is 1 exactly when the minuend is at
least the subtrahend (R150, R151, D14). -/
theorem WritesFlagged.difference {x : RegIdx} {a b : Byte} {s t : State}
    (h : WritesFlagged x (a - b) (noBorrowFlag a b) s t) :
    (x ≠ VF → ((t.reg x).toNat : Int) = ((a.toNat : Int) - (b.toNat : Int)) % 256) ∧
      (t.reg VF).toNat = (if a.toNat ≥ b.toNat then 1 else 0) ∧ Advances s t ∧ Frame { regs := [x, VF] } s t := by
  refine ⟨fun hx => ?_, ?_, h.advances, h.frame⟩
  · rw [h.result hx, toNat_sub_eq_emod]
  · rw [h.flag, noBorrowFlag_toNat]

/-- Settles O42: the two subtractions are one, with the operands changed over. -/
theorem subtractionsSetNoBorrow : Obligations.SubtractionsSetNoBorrow := by
  refine fun s x y => ⟨?_, ?_⟩
  · exact ⟨_, rfl, (s.writesFlagged_setRegFlag x _ _).difference⟩
  · exact ⟨_, rfl, (s.writesFlagged_setRegFlag x _ _).difference⟩

/-- The source of a shift is the register that `SHIFT_SOURCE` names (D10). -/
theorem State.shiftOperand_toNat (s : State) {x y : RegIdx} {a : Nat}
    (h : (s.params.shiftSource = .vy ∧ a = (s.reg y).toNat) ∨ (s.params.shiftSource = .vx ∧ a = (s.reg x).toNat)) :
    (s.shiftOperand x y).toNat = a := by
  unfold State.shiftOperand
  obtain ⟨hsrc, ha⟩ | ⟨hsrc, ha⟩ := h <;> rw [hsrc, ha]

/-- Settles O43: the source halved or doubled, with the bit that leaves it. -/
theorem shiftsMoveOneBit : Obligations.ShiftsMoveOneBit := by
  intro s x y a hsource
  obtain rfl := s.shiftOperand_toNat hsource
  have hshr := s.writesFlagged_setRegFlag x (s.shiftOperand x y >>> 1) (shiftOutLow (s.shiftOperand x y))
  have hshl := s.writesFlagged_setRegFlag x (s.shiftOperand x y <<< 1) (shiftOutHigh (s.shiftOperand x y))
  refine ⟨⟨_, rfl, fun hx => ?_, ?_, hshr.advances, hshr.frame⟩, ⟨_, rfl, fun hx => ?_, ?_, hshl.advances, hshl.frame⟩⟩
  · rw [hshr.result hx, toNat_ushiftRight_one]
  · rw [hshr.flag, shiftOutLow_toNat]
  · rw [hshl.result hx, toNat_shiftLeft_one]
  · rw [hshl.flag, shiftOutHigh_toNat]

/-- Settles O44: the draw is counted, and its byte under the mask is what the register takes. -/
theorem randomByteIsMasked : Obligations.RandomByteIsMasked := by
  intro s x nn
  have hframe := (Frame.refl { regs := [x], draws := true } s).draw rfl
  refine ⟨_, rfl, rfl, fun k _ => ?_, State.advances_advance rfl,
    (hframe.setReg (List.mem_singleton_self x) _).advance⟩
  rw [State.reg_advance, State.reg_setReg_self, BitVec.getLsbD_and]
  rfl

end Sys2Proof.Machine

/-! PROOFS. The index register and memory: the sum and the glyph address as numbers, what a store and a load
that pass their check leave in memory and in the registers, and the statements about the instructions at `I`
(42_memory_index R190 to R196). -/

namespace Sys2Proof.Machine

/-! ## The index register -/

/-- The sum of `I` and a byte is the exact one modulo 65536 (R191). -/
theorem toNat_add_setWidth (i : Half) (b : Byte) : (i + b.setWidth 16).toNat = (i.toNat + b.toNat) % 65536 := by
  have hb : b.toNat < 65536 := by have := b.isLt; omega
  rw [BitVec.toNat_add, BitVec.toNat_setWidth, Nat.mod_eq_of_lt hb]

/-- An instruction that only sets `I` and goes on changes nothing else (R190 to R192). -/
theorem State.frame_setI_advance (s : State) (a : Half) : Frame { i := true } s (s.setI a).advance :=
  ((Frame.refl _ s).setI (.inl rfl)).advance

/-- Settles O45: both only set `I` and go on. -/
theorem indexLoadAndAdd : Obligations.IndexLoadAndAdd := by
  refine fun s x nnn => ⟨?_, ?_⟩
  · exact ⟨_, rfl, address_toNat nnn, State.advances_advance rfl, s.frame_setI_advance _⟩
  · exact ⟨_, rfl, toNat_add_setWidth s.i (s.reg x), State.advances_advance rfl, s.frame_setI_advance _⟩

/-- The glyph of a byte's low nibble has its exact address, since the font lies below `LOAD_OFFSET` (R64, R331). -/
theorem glyphAddress_toNat {p : Params} (hp : p.legal) (b : Byte) :
    (glyphAddress p (b.extractLsb' 0 4)).toNat = p.fontBase + 5 * (b.toNat % 16) := by
  have hdigit : (b.extractLsb' 0 4).toNat = b.toNat % 16 := by simp
  obtain ⟨hfont, hload⟩ := hp
  rw [glyphAddress, hdigit, BitVec.toNat_ofNat, Nat.mod_eq_of_lt (by omega)]

/-- Settles O46: the two cases of the nibble operand. -/
theorem glyphAddressOrRefusal : Obligations.GlyphAddressOrRefusal := by
  refine fun s x hp => ⟨fun hdigit => ?_, fun hbig hrefuse => ?_⟩
  · have hexec : exec (.ldF x) s = .next (s.setI (glyphAddress s.params ((s.reg x).extractLsb' 0 4))).advance := by
      simp only [exec, execLdF, s.nibbleOperand_some x hdigit]
    exact ⟨_, hexec, glyphAddress_toNat hp (s.reg x), State.advances_advance rfl, s.frame_setI_advance _⟩
  · have hexec : exec (.ldF x) s = .next (s.refuse .fontDigitOutOfRange) := by
      simp only [exec, execLdF, s.nibbleOperand_none x hbig hrefuse]
    exact ⟨_, hexec, rfl⟩

/-! ## Stores that pass their check -/

/-- A store none of whose addresses fails goes on to its effect (R72). -/
theorem State.checked_badWrite {s : State} {a n : Nat} (h : ∀ k, k < n → ¬ WriteFails s.params (a + k)) (t : State) :
    s.checked (s.badWrite a n) t = t := by
  rw [s.badWrite_eq_none a n h, s.checked_none]

/-- A store none of whose addresses fails leaves its bytes in memory (R73, R75). -/
theorem State.readByte_writeBytes_in {s : State} {a : Nat} {bs : List Byte} (hwf : Memory.wf s.params s.mem)
    (h : ∀ k, k < bs.length → ¬ WriteFails s.params (a + k)) (k : Nat) (hk : k < bs.length) :
    (s.writeBytes a bs).readByte (a + k) = bs[k] := by
  obtain ⟨htop, -⟩ := s.badWrite_none_inv a bs.length (s.badWrite_eq_none a _ h) (by omega)
  rw [s.readByte_writeBytes a (a + k) bs hwf htop, if_pos (by omega), Nat.add_sub_cancel_left,
    List.getD_eq_getElem _ _ hk]

theorem State.writeBytes_pc (s : State) (a : Nat) (bs : List Byte) : (s.writeBytes a bs).pc = s.pc := by
  rw [State.writeBytes_eq]

/-- Settles O47: the three digits are stored at `I`, and each is below 256. -/
theorem bcdStoresThreeDigits : Obligations.BcdStoresThreeDigits := by
  intro s x hwf hallowed
  have hexec : exec (.ldB x) s = .next (s.writeBytes s.i.toNat (bcdDigits (s.reg x))).advance := by
    rw [exec, execLdB, State.checked_badWrite hallowed]
  have hbyte (k : Nat) (hk : k < 3) :=
    congrArg BitVec.toNat (State.readByte_writeBytes_in (bs := bcdDigits (s.reg x)) hwf hallowed k hk)
  have hdigit (n : Nat) (h : n ≤ (s.reg x).toNat) : (BitVec.ofNat 8 n).toNat = n :=
    Nat.mod_eq_of_lt (lt_of_le_of_lt h (s.reg x).isLt)
  refine ⟨_, hexec, ?_, ?_, ?_, State.advances_advance (s.writeBytes_pc _ _),
    ((Frame.refl { base := s.i.toNat, bytes := 3 } s).writeBytes (bcdDigits (s.reg x)) (le_refl 3)).advance⟩
  · exact (hbyte 0 (by omega)).trans (hdigit _ (by omega))
  · exact (hbyte 1 (by omega)).trans (hdigit _ (by omega))
  · exact (hbyte 2 (by omega)).trans (hdigit _ (by omega))

/-- The values of `V0` to `V[X]` by number (R194). -/
theorem getElem_map_reg_regsUpTo (s : State) (x r : RegIdx) (h : r.toNat < ((regsUpTo x).map s.reg).length) :
    ((regsUpTo x).map s.reg)[r.toNat] = s.reg r := by
  simp [regsUpTo]

/-- Settles O48: the registers are stored at `I`, and the last address of the store bounds the new `I`. -/
theorem bulkStoreWritesTheRegisters : Obligations.BulkStoreWritesTheRegisters := by
  intro s x hwf hallowed
  have hlen : ((regsUpTo x).map s.reg).length = x.toNat + 1 := by simp
  have hall : ∀ k, k < x.toNat + 1 → ¬ WriteFails s.params (s.i.toNat + k) := fun k hk => hallowed k (by omega)
  have htop : s.i.toNat + x.toNat ≤ 4095 := not_lt.1 fun h => hallowed x.toNat (le_refl _) (.inl h)
  have hexec : exec (.store x) s =
      .next ((s.writeBytes s.i.toNat ((regsUpTo x).map s.reg)).setI (bulkInc s.params s.i x)).advance := by
    rw [exec, execStore, State.checked_badWrite hall]
  have hframe := (Frame.refl { i := true, base := s.i.toNat, bytes := x.toNat + 1 } s).writeBytes _ hlen.le
  refine ⟨_, hexec, fun r hr => ?_, bulkInc_toNat s.params s.i x htop, State.advances_advance (s.writeBytes_pc _ _),
    (hframe.setI (.inl rfl)).advance⟩
  have hbyte := State.readByte_writeBytes_in hwf (hlen ▸ hall) r.toNat (by omega)
  exact hbyte.trans (getElem_map_reg_regsUpTo s x r _)

/-! ## Loads -/

/-- `V[r]` after `V0` to `V[X]` took the bytes from `a` on (R195). -/
theorem State.reg_setRegs_readBytes (s : State) (a : Nat) (x r : RegIdx) :
    (s.setRegs 0 (s.readBytes a (x.toNat + 1))).reg r =
      if r.toNat ≤ x.toNat then s.readByte (a + r.toNat) else s.reg r := by
  have hx := x.isLt
  rw [s.reg_setRegs 0 _ (by rw [s.length_readBytes]; omega), s.length_readBytes]
  by_cases hr : r.toNat ≤ x.toNat
  · rw [if_pos (by omega), if_pos hr, Nat.sub_zero, s.getD_readBytes a _ _ (by omega)]
  · rw [if_neg (by omega), if_neg hr]

theorem State.setRegs_pc (s : State) (k : Nat) (bs : List Byte) : (s.setRegs k bs).pc = s.pc := by
  rw [State.setRegs_eq]

/-- Settles O49: the read of `I` to `I + X` passes its check, and the registers it sets are `V0` to `V[X]`. -/
theorem bulkLoadReadsTheRegisters : Obligations.BulkLoadReadsTheRegisters := by
  intro s x htop
  have hexec : exec (.load x) s =
      .next ((s.setRegs 0 (s.readBytes s.i.toNat (x.toNat + 1))).setI (bulkInc s.params s.i x)).advance := by
    rw [exec, execLoad, s.badRead_none s.i.toNat (x.toNat + 1) (by simp only [memSize]; omega), s.checked_none]
  have hframe : Frame { regs := regsUpTo x, i := true } s
      ((s.setRegs 0 (s.readBytes s.i.toNat (x.toNat + 1))).setI (bulkInc s.params s.i x)).advance := by
    refine (((Frame.refl _ s).setRegs 0 _ fun j _ hj => (mem_regsUpTo x _).2 ?_).setI (.inl rfl)).advance
    rw [s.length_readBytes] at hj
    rw [BitVec.toNat_ofNat]
    omega
  refine ⟨_, hexec, s.reg_setRegs_readBytes s.i.toNat x, bulkInc_toNat s.params s.i x htop,
    State.advances_advance (s.setRegs_pc _ _), hframe⟩

end Sys2Proof.Machine

/-! PROOFS. The display: what follows from `Draws` for one draw and for two equal ones, DXYN said once as such a draw of
the pixels `spriteCovers`, and the statements about CLS and DXYN (43_display R220 to R227). -/

namespace Sys2Proof.Machine

/-! ## One draw, and two equal ones -/

section Draws

variable {cover : Nat → Nat → Bool} {f : Framebuffer} {d e : Bool × Framebuffer}

/-- A covered pixel is unset by the draw exactly when it was set, so the collision bit of a fresh draw says that some
pixel went from set to unset (R223). -/
theorem Draws.collides_iff_unsets (h : Draws cover (false, f) d) :
    d.1 = true ↔ ∃ px py, px < 64 ∧ py < 32 ∧ pixel f px py = true ∧ pixel d.2 px py = false := by
  obtain ⟨hxor, hcollides⟩ := h
  have hunset (px py : Nat) :
      cover px py = true ∧ pixel f px py = true ↔ pixel f px py = true ∧ pixel d.2 px py = false := by
    rw [hxor]
    cases pixel f px py <;> simp
  simp [hcollides, hunset]

/-- A covered pixel that was unset is one that the draw sets (R222). -/
theorem Draws.sets_iff (h : Draws cover (false, f) d) (px py : Nat) :
    pixel f px py = false ∧ pixel d.2 px py = true ↔ pixel f px py = false ∧ cover px py = true := by
  rw [h.1]
  cases pixel f px py <;> simp

/-- XOR by the same pixels twice is the identity (R222, R227). -/
theorem Draws.twice_restores (h : Draws cover (false, f) d) (k : Draws cover (false, d.2) e) : e.2 = f := by
  refine framebuffer_ext _ _ fun px py _ _ => ?_
  rw [k.1, h.1, Bool.xor_assoc, Bool.xor_self, Bool.xor_false]

/-- The second of two equal draws unsets what the first one set, so it collides exactly when there is such a pixel
(R223; log 28). -/
theorem Draws.twice_collides_iff (h : Draws cover (false, f) d) (k : Draws cover (false, d.2) e) :
    e.1 = true ↔ ∃ px py, px < 64 ∧ py < 32 ∧ pixel f px py = false ∧ pixel d.2 px py = true := by
  rw [k.collides_iff_unsets, h.twice_restores k]
  simp only [and_comm (a := pixel d.2 _ _ = true)]

end Draws

/-! ## The pixels under a sprite -/

/-- A set bit of a row lies over a pixel, the one at its distance around the grid from the corner (R222). -/
theorem exists_spriteBit_of_ne_zero (x y : Nat) {rows : List Byte} (hlen : rows.length ≤ 32)
    (hset : ∃ b ∈ rows, b ≠ 0x00#8) : ∃ px py, px < 64 ∧ py < 32 ∧ spriteBit x y rows px py = true := by
  obtain ⟨b, hb, hne⟩ := hset
  obtain ⟨r, hr, rfl⟩ := List.getElem_of_mem hb
  obtain ⟨k, hk, hbit⟩ : ∃ k, k < 8 ∧ rows[r].getLsbD k = true := by
    by_contra! hzero
    exact hne (BitVec.eq_of_getLsbD_eq fun k hk => by simpa using hzero k hk)
  have hrow : ((y + r) % 32 + (32 - y % 32)) % 32 = r := by omega
  have hcol : ((x + (7 - k)) % 64 + (64 - x % 64)) % 64 = 7 - k := by omega
  have hback : 7 - (7 - k) = k := by omega
  refine ⟨(x + (7 - k)) % 64, (y + r) % 32, Nat.mod_lt _ (by decide), Nat.mod_lt _ (by decide), ?_⟩
  simp only [spriteBit, hrow, List.getElem?_eq_getElem hr, rowBit, hcol, hback, hbit, Bool.and_true, decide_eq_true_eq]
  omega

/-- The pixels covered by the `n` rows read at `I` (R222, R225). -/
theorem spriteBit_readBytes (s : State) (x y n : Nat) :
    spriteBit x y (s.readBytes s.i.toNat n) = spriteCovers s x y n := by
  funext px py
  by_cases hr : (py + (32 - y % 32)) % 32 < n
  · simp [spriteBit, spriteCovers, rowBit, State.readBytes, hr]
  · simp [spriteBit, spriteCovers, State.readBytes, hr]

/-! ## DXYN with its rows in memory -/

/-- DXYN with `N` at least 1 and its rows in memory: one draw of the pixels that the sprite covers at the old registers,
then the collision bit to `VF` (R225, D13). -/
theorem exec_drw_draws (s : State) (x y : RegIdx) {n : BitVec 4} (hn : n ≠ 0x0#4) (htop : s.i.toNat + n.toNat ≤ 4096) :
    ∃ d, Draws (spriteCovers s (s.reg x).toNat (s.reg y).toNat n.toNat) (false, s.fb) d ∧
      exec (.drw x y n) s = .next ((s.setFb d.2).setReg VF (flagByte d.1)).advance := by
  have hlen : (s.readBytes s.i.toNat n.toNat).length ≤ 32 := by
    have := n.isLt
    rw [s.length_readBytes]
    omega
  have hdraws := drawSprite_draws (s.reg x).toNat (s.reg y).toNat _ s.fb hlen
  rw [spriteBit_readBytes] at hdraws
  refine ⟨_, hdraws, ?_⟩
  rw [exec, execDrw, if_neg hn, drawAtI, s.badRead_none _ _ htop, s.checked_none]

theorem flagByte_eq_one_iff (c : Bool) : flagByte c = 0x01#8 ↔ c = true := by cases c <;> decide

theorem flagByte_eq_one_or_zero (c : Bool) : flagByte c = 0x01#8 ∨ flagByte c = 0x00#8 := by cases c <;> decide

/-! ## The statements -/

/-- Settles O52: DXYN is one draw of the pixels that the sprite covers, and the flag is its collision bit. -/
theorem drawXorsEachPixelOnce : Obligations.DrawXorsEachPixelOnce := by
  intro s x y n hn htop
  obtain ⟨d, hdraws, hexec⟩ := exec_drw_draws s x y hn htop
  have hunsets := hdraws.collides_iff_unsets
  refine ⟨_, hexec, fun px py _ _ => hdraws.1 px py, ?_, State.advances_advance rfl,
    (((Frame.refl _ s).setFb rfl _).setReg (List.mem_singleton_self _) _).advance⟩
  rw [State.reg_advance, State.reg_setReg_self]
  cases hcollides : d.1 with
  | true => exact .inl ⟨rfl, hunsets.1 hcollides⟩
  | false =>
    refine .inr ⟨rfl, fun px py hx hy hset => ?_⟩
    by_contra hunset
    have hcollided := hunsets.2 ⟨px, py, hx, hy, hset, Bool.eq_false_iff.2 hunset⟩
    exact Bool.false_ne_true (hcollides.symm.trans hcollided)

/-- Settles O54: two equal draws, of rows and then of DXYN steps; the first step leaves `I` and memory as they were, so
that with equal coordinates the second covers the same pixels. -/
theorem drawingTwiceRestores : Obligations.DrawingTwiceRestores := by
  refine ⟨fun x y rows fb hlen => ?_, fun s t x y n hn htop hexec hx hy => ?_⟩
  · have hfirst := drawSprite_draws x y rows fb (by omega)
    have hsecond := drawSprite_draws x y rows (drawSprite x y rows fb).2 (by omega)
    refine ⟨hfirst.twice_restores hsecond, hfirst.twice_collides_iff hsecond, fun hset hempty => ?_⟩
    obtain ⟨px, py, hpx, hpy, hcover⟩ := exists_spriteBit_of_ne_zero x y (by omega) hset
    exact (hfirst.twice_collides_iff hsecond).2
      ⟨px, py, hpx, hpy, (hfirst.sets_iff px py).2 ⟨hempty px py, hcover⟩⟩
  · obtain ⟨d, hfirst, hstep⟩ := exec_drw_draws s x y hn htop
    obtain rfl : ((s.setFb d.2).setReg VF (flagByte d.1)).advance = t := by
      rw [hstep] at hexec
      exact Host.Outcome.next.inj hexec
    obtain ⟨e, hsecond, hagain⟩ := exec_drw_draws ((s.setFb d.2).setReg VF (flagByte d.1)).advance x y hn htop
    rw [hx, hy] at hsecond
    have hcollides := hfirst.twice_collides_iff hsecond
    simp only [hfirst.sets_iff] at hcollides
    refine ⟨_, hagain, hfirst.twice_restores hsecond, ?_⟩
    rw [State.reg_advance, State.reg_setReg_self]
    exact ⟨flagByte_eq_one_or_zero _, (flagByte_eq_one_iff _).trans hcollides⟩

/-- Settles O51: the decoder's answer is the first of those in O1, and the cleared framebuffer has no pixel set. -/
theorem clsClearsEveryPixel : Obligations.ClsClearsEveryPixel := by
  intro s
  obtain ⟨hdecode, -⟩ := writtenOutWordsDecode
  exact ⟨hdecode, _, rfl, pixel_clearedFb, State.advances_advance rfl, ((Frame.refl _ s).setFb rfl _).advance⟩

/-- Settles O53: DXY0 by the two values of the policy. -/
theorem zeroHeightSpriteByPolicy : Obligations.ZeroHeightSpriteByPolicy := by
  intro s x y
  have hexec : exec (.drw x y 0x0#4) s = .next (drawNothing s) := rfl
  rw [hexec, drawNothing]
  refine ⟨fun hrefuse => ?_, fun hrows => ?_⟩
  · rw [hrefuse]
    exact ⟨_, rfl, rfl⟩
  · rw [hrows]
    exact ⟨_, rfl, s.reg_setReg_self VF _, State.advances_advance rfl,
      ((Frame.refl _ s).setReg (List.mem_singleton_self _) _).advance⟩

end Sys2Proof.Machine

/-! PROOFS. The timer instructions: the words of the encoder, and one write each to a register, `DT` or `ST` before `PC`
goes on (44_timers R242 to R244). -/

namespace Sys2Proof.Machine

/-- Settles O55: FX07 writes a result alone, FX15 and FX18 set one timer, and their words are those of the encoder. -/
theorem timerRegistersAreMoved : Obligations.TimerRegistersAreMoved := by
  intro s x
  have hread := s.writesResult_setReg x s.dt
  have hdelay : Frame { dt := true } s (s.setDelay (s.reg x)).advance := ((Frame.refl _ s).setDelay rfl _).advance
  have hsound : Frame { st := true } s (s.setSound (s.reg x)).advance := ((Frame.refl _ s).setSound rfl _).advance
  refine ⟨⟨?_, ?_, ?_⟩, ?_, ?_, ?_⟩
  · exact decodeOfEncode (.ldFromDt x)
  · exact decodeOfEncode (.ldDt x)
  · exact decodeOfEncode (.ldSt x)
  · exact ⟨_, rfl, hread.result, hread.advances, hread.frame⟩
  · exact ⟨_, rfl, s.setDelay_dt _, State.advances_advance (s.setDelay_pc _), hdelay⟩
  · exact ⟨_, rfl, s.setSound_st _, State.advances_advance (s.setSound_pc _), hsound⟩

end Sys2Proof.Machine

/-! PROOFS. The input: the two ends of a key event as moves of a quiet core, the slots that a wait consumes, and the
three key instructions (45_input R250 to R256, 60_exceptions R279, R284, R287, R295). -/

namespace Sys2Proof.Machine

/-! ## Key events -/

/-- The next call of a quiet core's host is a key event: the core's move is that event (R250, R295). -/
theorem step_of_key_event {s : State} {k : RegIdx} {p : Bool} {rest : List HostCall}
    (hcalls : s.calls = .setPressed k p :: rest) (hquiet : s.Quiet) :
    step s = .next (({ s with calls := rest } : State).setPressed k p) := by
  rw [step_quiet s hquiet, hostTurn_cons s _ rest hcalls, State.hostCall]

/-- A qualifying press ends the wait (R255). -/
theorem State.setPressed_of_qualifies {s : State} {x k : RegIdx} (hwait : s.ctl = .waitingForKey x)
    (hup : s.isPressed k = false) : s.setPressed k true = s.endWait x k := by
  simp only [State.setPressed, hwait, hup, Bool.not_false, Bool.and_self, if_true]

/-- A key event that does not qualify only writes its bit (R250, R255). -/
theorem State.setPressed_of_not_qualifies {s : State} {k : RegIdx} {p : Bool}
    (hother : ∀ x, s.ctl = .waitingForKey x → p = true → s.isPressed k = true) :
    s.setPressed k p = s.setKey k p := by
  rw [State.setPressed]
  cases hctl : s.ctl with
  | running => rfl
  | halted => rfl
  | waitingForKey x =>
    have hnot : ¬ (p && !s.isPressed k) = true := by simpa using hother x hctl
    exact if_neg hnot

theorem State.isPressed_endWait (s : State) (x k j : RegIdx) :
    (s.endWait x k).isPressed j = if j = k then true else s.isPressed j :=
  s.isPressed_setKey k j true

theorem State.reg_endWait (s : State) (x k r : RegIdx) :
    (s.endWait x k).reg r = if r = x then k.setWidth 8 else s.reg r :=
  (s.setKey k true).reg_setReg x r (k.setWidth 8)

/-- The end of a wait goes on from FX0A, whose `PC` the wait has kept (R255). -/
theorem State.advances_endWait (s : State) (x k : RegIdx) : Advances s (s.endWait x k) := s.pcNext_toNat

/-- Settles O14: the core's move is the press, and the press is the end of the wait. -/
theorem qualifyingPressEndsTheWait : Obligations.QualifyingPressEndsTheWait := by
  intro s x k rest hcalls hquiet hwait hup
  have hstep : step s = .next (({ s with calls := rest } : State).endWait x k) :=
    (step_of_key_event hcalls hquiet).trans (congrArg _ (State.setPressed_of_qualifies hwait hup))
  refine ⟨_, hstep, rfl, State.isPressed_endWait _ x k, ?_, fun r hr => ?_, State.advances_endWait _ x k, rfl⟩
  · rw [State.reg_endWait, if_pos rfl, BitVec.toNat_setWidth_of_le (by decide)]
  · exact (State.reg_endWait _ x k r).trans (if_neg hr)

/-- Settles O15: the core's move is the event, and the event writes one bit. -/
theorem otherKeyEventsOnlyWriteTheBitmap : Obligations.OtherKeyEventsOnlyWriteTheBitmap := by
  intro s k p rest hcalls hquiet hother
  have hstep : step s = .next (({ s with calls := rest } : State).setKey k p) :=
    (step_of_key_event hcalls hquiet).trans (congrArg _ (State.setPressed_of_not_qualifies hother))
  exact ⟨_, hstep, fun j => State.isPressed_setKey _ k j p, rfl⟩

/-! ## Slots of a waiting core -/

/-- A core that is not stopped processes the slot it picks (R286). -/
theorem step_of_pick {s u : State} {a : Stream} (hlive : s.stopped = false) (hpick : s.pick = some (a, u)) :
    step s = processSlot a u := by
  simp only [step, turn, hlive, hpick, Bool.false_eq_true, if_false]

/-- Settles O12: the slot of a waiting core is counted, and no instruction runs in it. -/
theorem waitingConsumesInstructionSlots : Obligations.WaitingConsumesInstructionSlots := by
  intro s u x hlive hwait hpick
  rw [step_of_pick hlive hpick]
  obtain ⟨-, ties, rfl⟩ := s.pick_due u _ hpick
  simp only [processSlot, instrSlot, State.count, hwait]

/-! ## The key instructions -/

/-- The bit of the key that a byte's low nibble names (R35, R252). -/
theorem State.getElem?_keys_low_nibble (s : State) (b : Byte) :
    s.keys[b.toNat % 16]? = some (s.isPressed (b.extractLsb' 0 4)) := by
  have hkey : (b.extractLsb' 0 4).toNat = b.toNat % 16 := by simp
  rw [← hkey]
  exact Vector.getElem?_eq_getElem _

/-- EX9E with a key to read is a skip on the key's bit being 1 (R252). -/
theorem exec_skp_of_key (s : State) (x : RegIdx) (h : (s.reg x).toNat ≤ 0xF ∨ s.params.nibblePolicy = .mask) :
    exec (.skp x) s = .next (s.skipIf (decide (s.keys[(s.reg x).toNat % 16]? = some true))) := by
  simp only [exec, execSkp, s.nibbleOperand_some x h, s.getElem?_keys_low_nibble, Option.some.injEq,
    Bool.decide_eq_true]

/-- EXA1 with a key to read is a skip on the key's bit being 0 (R253). -/
theorem exec_sknp_of_key (s : State) (x : RegIdx) (h : (s.reg x).toNat ≤ 0xF ∨ s.params.nibblePolicy = .mask) :
    exec (.sknp x) s = .next (s.skipIf (decide (s.keys[(s.reg x).toNat % 16]? = some false))) := by
  simp only [exec, execSknp, s.nibbleOperand_some x h, s.getElem?_keys_low_nibble, Option.some.injEq,
    Bool.decide_eq_false]

/-- Settles O56: the two cases of the nibble operand. -/
theorem keySkipsReadTheBitmap : Obligations.KeySkipsReadTheBitmap := by
  refine fun s x => ⟨fun hkey => ⟨?_, ?_⟩, fun hbig hrefuse => ?_⟩
  · exact ⟨_, exec_skp_of_key s x hkey, s.skips_skipIf _, (Frame.refl _ s).skipIf _⟩
  · exact ⟨_, exec_sknp_of_key s x hkey, s.skips_skipIf _, (Frame.refl _ s).skipIf _⟩
  · have hnone := s.nibbleOperand_none x hbig hrefuse
    have hskp : exec (.skp x) s = .next (s.refuse .keyIndexOutOfRange) := by simp only [exec, execSkp, hnone]
    have hsknp : exec (.sknp x) s = .next (s.refuse .keyIndexOutOfRange) := by simp only [exec, execSknp, hnone]
    exact ⟨⟨_, hskp, rfl⟩, ⟨_, hsknp, rfl⟩⟩

/-- Settles O57: FX0A only sets `STATE`. -/
theorem keyWaitBegins : Obligations.KeyWaitBegins :=
  fun s x => ⟨_, rfl, s.awaitKey_ctl x, s.awaitKey_pc x, (Frame.refl _ s).awaitKey rfl x⟩

end Sys2Proof.Machine

/-! PROOFS. Instructions and what stands outside them: the clock, the configuration, the host's calls and the signals
do not matter to an instruction, and each fault comes from its own instructions (60_exceptions R270 to R283). -/

namespace Sys2Proof.Machine

/-! ## What stands outside an instruction -/

/-- What an instruction has no part in (R283): the time, the configuration, the slot counters, the host's calls and the
signals sent. -/
structure Outside where
  time : Rat
  config : HostConfig
  nInstr : Nat
  nTick : Nat
  nFrame : Nat
  calls : List HostCall
  sent : List Signal

def State.outside (s : State) : Outside where
  time := s.time
  config := s.config
  nInstr := s.nInstr
  nTick := s.nTick
  nFrame := s.nFrame
  calls := s.calls
  sent := s.sent

/-- The same core with another time, configuration, counters, calls and signals. -/
def State.withOutside (s : State) (o : Outside) : State :=
  { s with
    time := o.time
    config := o.config
    nInstr := o.nInstr
    nTick := o.nTick
    nFrame := o.nFrame
    calls := o.calls
    sent := o.sent }

theorem Frame.outside_eq {w : Touched} {s t : State} (h : Frame w s t) : t.outside = s.outside := by
  obtain ⟨-, -, -, -, -, -, -, -, -, -, -, -, ecfg, -, etime, einstr, etick, eframe, -, ecalls, esent, -⟩ := h
  simp only [State.outside, ecfg, etime, einstr, etick, eframe, ecalls, esent]

/-- A running core's own move leaves `FAULT` and everything outside it alone, or it is a fault (R276, R283). -/
theorem CpuMoves.outside_cases {s t : State} (h : CpuMoves s t) :
    (t.outside = s.outside ∧ t.fault = s.fault) ∨ ∃ c, t = s.raise c := by
  cases h with
  | faults c e => exact .inr ⟨c, e⟩
  | refuses r e => subst e; exact .inl ⟨rfl, rfl⟩
  | completes i t₀ w hc e => subst e; exact .inl ⟨hc.frame.outside_eq, hc.frame.fault_eq⟩

/-! ## How an instruction ends, whatever is outside it -/

/-- The faults that instruction `i` can raise from `s` (R271 to R273). -/
inductive Raises (s : State) : Instr → FaultCause → Prop where
  | drw (x y : RegIdx) (n : BitVec 4) (a : Nat) : Raises s (.drw x y n) (.addressOutOfRange a)
  | ldB (x : RegIdx) (a : Nat) : Raises s (.ldB x) (.addressOutOfRange a)
  | store (x : RegIdx) (a : Nat) : Raises s (.store x) (.addressOutOfRange a)
  | load (x : RegIdx) (a : Nat) : Raises s (.load x) (.addressOutOfRange a)
  | call (nnn : Addr12) (h : 16 ≤ s.sp.toNat) : Raises s (.call nnn) .stackOverflow
  | ret (h : s.sp.toNat = 0) : Raises s .ret .stackUnderflow

/-- Two answers of instruction `i`, from `s` and from `s` with `o` outside: both go on to the same state, which leaves
what is outside and `FAULT` alone, or both enter one of the instruction's faults (R276, R283). -/
inductive EndsApart (i : Instr) (s : State) (o : Outside) : Result → Result → Prop where
  | goes (t : State) (hout : t.outside = s.outside := by rfl) (hfault : t.fault = s.fault := by rfl) :
      EndsApart i s o (.next t) (.next (t.withOutside o))
  | faults (c : FaultCause) (hc : Raises s i c) :
      EndsApart i s o (.next (s.raise c)) (.next ((s.withOutside o).raise c))

section EndsApartRules

variable {i : Instr} {s : State} {o : Outside}

theorem EndsApart.checked (hi : ∀ a, Raises s i (.addressOutOfRange a)) (bad : Option Nat) {t : State}
    (hout : t.outside = s.outside) (hfault : t.fault = s.fault) :
    EndsApart i s o (.next (s.checked bad t)) (.next ((s.withOutside o).checked bad (t.withOutside o))) := by
  cases bad with
  | none => exact .goes t hout hfault
  | some a => exact .faults _ (hi a)

/-- A logic result does not depend on what is outside (R155 to R157). -/
theorem EndsApart.setRegLogic (x : RegIdx) (b : Byte) :
    EndsApart i s o (.next (s.setRegLogic x b).advance) (.next ((s.withOutside o).setRegLogic x b).advance) := by
  have hparams : (s.withOutside o).params = s.params := rfl
  unfold State.setRegLogic
  rw [hparams]
  split
  · exact .goes (s.setRegFlag x b 0x00#8).advance
  · exact .goes (s.setReg x b).advance

theorem State.writeBytes_withOutside (s : State) (o : Outside) (a : Nat) (bs : List Byte) :
    (s.withOutside o).writeBytes a bs = (s.writeBytes a bs).withOutside o := by
  induction bs generalizing s a with
  | nil => rfl
  | cons b bs ih => exact ih (s.writeByte a b) (a + 1)

theorem State.setRegs_withOutside (s : State) (o : Outside) (k : Nat) (bs : List Byte) :
    (s.withOutside o).setRegs k bs = (s.setRegs k bs).withOutside o := by
  induction bs generalizing s k with
  | nil => rfl
  | cons b bs ih => exact ih (s.setReg (BitVec.ofNat 4 k) b) (k + 1)

theorem State.writeBytes_apart (s : State) (a : Nat) (bs : List Byte) :
    (s.writeBytes a bs).outside = s.outside ∧ (s.writeBytes a bs).fault = s.fault := by
  rw [State.writeBytes_eq]
  exact ⟨rfl, rfl⟩

theorem State.setRegs_apart (s : State) (k : Nat) (bs : List Byte) :
    (s.setRegs k bs).outside = s.outside ∧ (s.setRegs k bs).fault = s.fault := by
  rw [State.setRegs_eq]
  exact ⟨rfl, rfl⟩

end EndsApartRules

section Apart

variable (s : State) (o : Outside)

theorem execRet_apart : EndsApart .ret s o (execRet s) (execRet (s.withOutside o)) := by
  by_cases h : s.sp = 0x00#8
  · rw [execRet, execRet, s.pop_none h, (s.withOutside o).pop_none h]
    exact .faults _ (.ret (congrArg BitVec.toNat h))
  · have h' : (s.withOutside o).sp ≠ 0x00#8 := h
    simp only [execRet, State.pop, if_neg h, if_neg h']
    exact .goes _

theorem execCall_apart (nnn : Addr12) :
    EndsApart (.call nnn) s o (execCall nnn s) (execCall nnn (s.withOutside o)) := by
  by_cases h : s.sp.toNat < 16
  · rw [execCall, execCall, s.push_some _ h, (s.withOutside o).push_some _ h]
    exact .goes _
  · have hfull : 16 ≤ s.sp.toNat := Nat.le_of_not_lt h
    rw [execCall, execCall, s.push_none _ hfull, (s.withOutside o).push_none _ hfull]
    exact .faults _ (.call nnn hfull)

theorem execDrw_apart (x y : RegIdx) (n : BitVec 4) :
    EndsApart (.drw x y n) s o (execDrw x y n s) (execDrw x y n (s.withOutside o)) := by
  unfold execDrw
  split
  · have hparams : (s.withOutside o).params = s.params := rfl
    unfold drawNothing
    rw [hparams]
    cases s.params.zeroHeight with
    | refuse => exact .goes (s.refuse .zeroHeightSprite)
    | noRows => exact .goes (s.setReg VF 0x00#8).advance
  · unfold drawAtI
    exact .checked (.drw x y n) _ (t := ((s.setFb _).setReg VF _).advance) rfl rfl

theorem execSkp_apart (x : RegIdx) : EndsApart (.skp x) s o (execSkp x s) (execSkp x (s.withOutside o)) := by
  have hnib : (s.withOutside o).nibbleOperand x = s.nibbleOperand x := rfl
  unfold execSkp
  rw [hnib]
  cases s.nibbleOperand x with
  | none => exact .goes (s.refuse .keyIndexOutOfRange)
  | some k => exact .goes (s.skipIf (s.isPressed k))

theorem execSknp_apart (x : RegIdx) : EndsApart (.sknp x) s o (execSknp x s) (execSknp x (s.withOutside o)) := by
  have hnib : (s.withOutside o).nibbleOperand x = s.nibbleOperand x := rfl
  unfold execSknp
  rw [hnib]
  cases s.nibbleOperand x with
  | none => exact .goes (s.refuse .keyIndexOutOfRange)
  | some k => exact .goes (s.skipIf (!s.isPressed k))

theorem execLdF_apart (x : RegIdx) : EndsApart (.ldF x) s o (execLdF x s) (execLdF x (s.withOutside o)) := by
  have hnib : (s.withOutside o).nibbleOperand x = s.nibbleOperand x := rfl
  unfold execLdF
  rw [hnib]
  cases s.nibbleOperand x with
  | none => exact .goes (s.refuse .fontDigitOutOfRange)
  | some d => exact .goes (s.setI (glyphAddress s.params d)).advance

theorem execLdB_apart (x : RegIdx) : EndsApart (.ldB x) s o (execLdB x s) (execLdB x (s.withOutside o)) := by
  unfold execLdB
  rw [State.writeBytes_withOutside]
  obtain ⟨hout, hfault⟩ := s.writeBytes_apart s.i.toNat (bcdDigits (s.reg x))
  exact .checked (.ldB x) _ (t := (s.writeBytes _ _).advance) hout hfault

theorem execStore_apart (x : RegIdx) : EndsApart (.store x) s o (execStore x s) (execStore x (s.withOutside o)) := by
  unfold execStore
  rw [State.writeBytes_withOutside]
  obtain ⟨hout, hfault⟩ := s.writeBytes_apart s.i.toNat ((regsUpTo x).map s.reg)
  exact .checked (.store x) _ (t := ((s.writeBytes _ _).setI _).advance) hout hfault

theorem execLoad_apart (x : RegIdx) : EndsApart (.load x) s o (execLoad x s) (execLoad x (s.withOutside o)) := by
  unfold execLoad
  rw [State.setRegs_withOutside]
  obtain ⟨hout, hfault⟩ := s.setRegs_apart 0 (s.readBytes s.i.toNat (x.toNat + 1))
  exact .checked (.load x) _ (t := ((s.setRegs _ _).setI _).advance) hout hfault

/-- Every instruction ends alike whatever is outside it. -/
theorem exec_apart (i : Instr) : EndsApart i s o (exec i s) (exec i (s.withOutside o)) := by
  cases i with
  | ret => exact execRet_apart s o
  | call nnn => exact execCall_apart s o nnn
  | orReg x y => exact .setRegLogic x (s.reg x ||| s.reg y)
  | andReg x y => exact .setRegLogic x (s.reg x &&& s.reg y)
  | xorReg x y => exact .setRegLogic x (s.reg x ^^^ s.reg y)
  | drw x y n => exact execDrw_apart s o x y n
  | skp x => exact execSkp_apart s o x
  | sknp x => exact execSknp_apart s o x
  | ldF x => exact execLdF_apart s o x
  | ldB x => exact execLdB_apart s o x
  | store x => exact execStore_apart s o x
  | load x => exact execLoad_apart s o x
  | _ => exact .goes _

end Apart

/-- An instruction keeps `FAULT`, or enters a fault that is its own to raise (R276). -/
theorem exec_fault_cases {i : Instr} {s t : State} (hexec : exec i s = .next t) :
    t.fault = s.fault ∨ ∃ c, Raises s i c ∧ t = s.raise c := by
  have h := exec_apart s s.outside i
  rw [hexec] at h
  generalize exec i (s.withOutside s.outside) = other at h
  cases h with
  | goes _ _ hfault => exact .inl hfault
  | faults c hc => exact .inr ⟨c, hc, rfl⟩

/-- Settles O27: the two answers of an instruction, the report of its fault being all that it sends. -/
theorem instructionsIgnoreTheClock : Obligations.InstructionsIgnoreTheClock := by
  intro i s t time config n m k calls sent hexec
  have h := exec_apart s ⟨time, config, n, m, k, calls, sent⟩ i
  rw [hexec] at h
  generalize hother : exec i (s.withOutside _) = other at h
  cases h with
  | goes _ hout _ =>
    refine ⟨[], .inl rfl, ?_, hother⟩
    change t = t.withOutside s.outside
    rw [← hout]
    rfl
  | faults c _ => exact ⟨[.faultReport ⟨c, s.pc⟩], .inr ⟨_, rfl, rfl⟩, rfl, hother⟩

/-- Settles O29, fault by fault. -/
theorem faultsComeOnlyFromTheirInstructions : Obligations.FaultsComeOnlyFromTheirInstructions := by
  intro i s t f hsp hnone hexec hf
  rcases exec_fault_cases hexec with hkeep | ⟨c, hc, rfl⟩
  · rw [hkeep, hnone] at hf
    cases hf
  · cases hf
    refine ⟨rfl, ?_⟩
    cases hc with
    | drw x y n a => exact .inl ⟨a, rfl, .inl ⟨x, y, n, rfl⟩⟩
    | ldB x a => exact .inl ⟨a, rfl, .inr ⟨x, .inl rfl⟩⟩
    | store x a => exact .inl ⟨a, rfl, .inr ⟨x, .inr (.inl rfl)⟩⟩
    | load x a => exact .inl ⟨a, rfl, .inr ⟨x, .inr (.inr rfl)⟩⟩
    | call nnn hfull => exact .inr (.inl ⟨rfl, ⟨nnn, rfl⟩, Nat.le_antisymm hsp hfull⟩)
    | ret hempty => exact .inr (.inr ⟨rfl, rfl, hempty⟩)

end Sys2Proof.Machine

/-! PROOFS. The scheduler: the signals sent, the slots, the turn of the host, and what a slot moves of the clock
(60_exceptions R280 to R306). -/

namespace Sys2Proof.Machine

/-! ## The signals sent -/

/-- The signals agree with `FAULT` and the frame counter alone. -/
theorem State.SignalsAgree.of_outside_eq {s t : State} (h : s.SignalsAgree) (hout : t.outside = s.outside)
    (hfault : t.fault = s.fault) : t.SignalsAgree := by
  have hsent : t.sent = s.sent := congrArg Outside.sent hout
  have hframe : t.nFrame = s.nFrame := congrArg Outside.nFrame hout
  rwa [State.SignalsAgree, hsent, hframe, hfault]

/-- The first fault sends the one report (R306). -/
theorem State.SignalsAgree.raise {s : State} (h : s.SignalsAgree) (hfault : s.fault = none) (c : FaultCause) :
    (s.raise c).SignalsAgree := by
  obtain ⟨hframes, hreports⟩ := h
  refine ⟨?_, ?_⟩
  · exact (List.countP_cons_of_neg Bool.false_ne_true).trans hframes
  · exact (List.countP_cons_of_pos rfl).trans (by rw [hreports, hfault]; rfl)

/-- A frame slot sends one frame-ready and no report, in either order of its signals (R289, R291). -/
theorem State.countP_frameSignals (s : State) :
    s.frameSignals.countP Signal.isFrame = 1 ∧ s.frameSignals.countP Signal.isReport = 0 := by
  rcases s.frameSignals_cases with ⟨-, e⟩ | ⟨-, e | e⟩ <;> rw [e] <;> exact ⟨rfl, rfl⟩

theorem State.SignalsAgree.frame_slot {s : State} (h : s.SignalsAgree) : (s.count .frame).frame.SignalsAgree := by
  obtain ⟨hframes, hreports⟩ := h
  obtain ⟨hone, hnone⟩ := (s.count .frame).countP_frameSignals
  refine ⟨?_, ?_⟩
  · change ((s.count .frame).frameSignals ++ s.sent).countP _ = s.nFrame + 1
    rw [List.countP_append, hone, hframes, Nat.add_comm]
  · change ((s.count .frame).frameSignals ++ s.sent).countP _ = _
    rw [List.countP_append, hnone, Nat.zero_add, hreports]
    rfl

/-- A host call sends nothing (R286, R250). -/
theorem State.SignalsAgree.hostCall {s : State} (h : s.SignalsAgree) (c : HostCall) : (s.hostCall c).SignalsAgree := by
  rcases s.hostCall_cases c with ⟨num, den, -, e⟩ | ⟨k, p, -, e⟩ | ⟨k, x, -, -, -, e⟩ <;> rw [e] <;> exact h

/-- A core of the invariant that is not halted has an empty `FAULT` (R39, R276). -/
theorem State.Wf.fault_eq_none {s : State} (h : s.Wf) (hctl : s.ctl ≠ .halted) : s.fault = none := by
  obtain ⟨-, -, -, -, -, -, hfault, -⟩ := h
  simpa [hctl] using hfault

/-- Settles O23, form by form of the step. -/
theorem stepKeepsTheSignalsAgreed : Obligations.StepKeepsTheSignalsAgreed := by
  intro s t hwf hagree hstep
  have hpicked : ∀ {a : Stream} {u : State}, s.pick = some (a, u) → u.SignalsAgree ∧ u.fault = s.fault := fun hpick => by
    obtain ⟨-, k, rfl⟩ := s.pick_due _ _ hpick
    exact ⟨hagree, rfl⟩
  cases step_moves s t hstep with
  | runs u _ hpick hrun h =>
    obtain ⟨hu, hfault⟩ := hpicked hpick
    have hnone : u.fault = none := hfault.trans (hwf.fault_eq_none (by simp [hrun]))
    have hcount : (u.count .instr).SignalsAgree := hu
    rcases h.outside_cases with ⟨hout, hkeep⟩ | ⟨c, rfl⟩
    · exact hcount.of_outside_eq hout hkeep
    · exact hcount.raise hnone c
  | waits u hpick h => subst h; exact (hpicked hpick).1
  | ticks u hpick h => subst h; exact (hpicked hpick).1
  | shows u hpick h => subst h; exact (hpicked hpick).1.frame_slot
  | calls c rest h => subst h; exact State.SignalsAgree.hostCall (s := { s with calls := rest }) hagree c
  | idles h => exact h ▸ hagree

/-! ## The slots (R285 to R290) -/

/-- Settles O9: what `pick` answers is among the soonest streams, and a due stream makes one of them the soonest. -/
theorem pickedSlotIsDueAndSoonest : Obligations.PickedSlotIsDueAndSoonest := by
  intro s hlegal
  refine ⟨fun a u hpick => ?_, fun b hb => ?_⟩
  · obtain ⟨hmem, hu, hties⟩ := s.pick_some u a hpick
    obtain ⟨hdue, hsoonest⟩ := (s.mem_soonest a).1 hmem
    refine ⟨(s.due_iff_deadline hlegal a).1 hdue, fun b => ?_, hu, hties⟩
    rw [← not_lt, ← s.earlier_iff hlegal, hsoonest b]
    exact Bool.false_ne_true
  · have hdue : s.due b = true := (s.due_iff_deadline hlegal b).2 hb
    have hne : s.pick ≠ none := mt s.pick_none.1 (s.soonest_ne_nil hlegal b hdue)
    obtain ⟨⟨a, u⟩, hpick⟩ := Option.ne_none_iff_exists'.1 hne
    exact ⟨a, u, hpick⟩

/-- A timer after `tick()`: one lower, or still zero (R241). -/
theorem toNat_ticked (b : Byte) : (if b = 0x00#8 then b else b - 1#8).toNat = b.toNat - 1 := by
  split <;> bv_omega

/-- Settles O10: each timer of the counted state, by its value. -/
theorem tickSlotCountsBothTimersDown : Obligations.TickSlotCountsBothTimersDown := by
  intro s u hlive hpick
  obtain ⟨-, ties, rfl⟩ := s.pick_due u _ hpick
  exact ⟨_, _, step_of_pick hlive hpick, toNat_ticked s.dt, toNat_ticked s.st⟩

/-- Settles O11: the signals of the counted state. -/
theorem frameSlotSignalsTheHost : Obligations.FrameSlotSignalsTheHost := by
  intro s u hlive hpick
  obtain ⟨-, ties, rfl⟩ := s.pick_due u _ hpick
  refine ⟨_, step_of_pick hlive hpick, ?_⟩
  rcases State.frameSignals_cases (({ s with ties := ties } : State).count .frame) with ⟨hst, hsig⟩ | ⟨hst, hsig⟩
  · have hzero : s.st.toNat = 0 := congrArg BitVec.toNat hst
    exact ⟨fun _ => hsig, fun h => absurd hzero h⟩
  · have hpos : s.st.toNat ≠ 0 := fun h => hst (BitVec.eq_of_toNat_eq h)
    exact ⟨fun h => absurd h hpos, fun _ => hsig⟩

/-! ## The host's turn (R280, R293, R295) -/

/-- What the turn of the host can answer: its next call takes effect, or the core idles or has stopped for good. -/
theorem hostTurn_cases (s : State) :
    (∃ c rest, s.calls = c :: rest ∧ hostTurn s = .next (({ s with calls := rest } : State).hostCall c)) ∨
      s.calls = [] ∧
        ((∃ r, s.refused = some r ∧ hostTurn s = .refused (.noMeaning r)) ∨
          (s.ctl = .halted ∧ hostTurn s = .fault (.halted s.fault)) ∨
          (s.stopped = false ∧ hostTurn s = .next s)) := by
  cases hcalls : s.calls with
  | cons c rest => exact .inl ⟨c, rest, rfl, hostTurn_cons s c rest hcalls⟩
  | nil =>
    refine .inr ⟨rfl, ?_⟩
    simp only [hostTurn, hcalls]
    cases hrefused : s.refused with
    | some r => exact .inl ⟨r, rfl, rfl⟩
    | none =>
      by_cases hctl : s.ctl = .halted
      · exact .inr (.inl ⟨hctl, if_pos hctl⟩)
      · exact .inr (.inr ⟨s.stopped_eq_false.2 ⟨hctl, hrefused⟩, if_neg hctl⟩)

/-- Settles O13: a quiet core's move is its host's next call. -/
theorem hostAdvancesTimeBetweenSlots : Obligations.HostAdvancesTimeBetweenSlots := by
  intro s num den rest hcalls hquiet
  rw [step_quiet s hquiet, hostTurn_cons s _ rest hcalls]
  rfl

/-- A stopped core of the invariant does not wait for a key: it is halted, or refused while `Running` (R284). -/
theorem State.Wf.ctl_ne_waiting {s : State} (h : s.Wf) (hstop : s.stopped = true) (x : RegIdx) :
    s.ctl ≠ .waitingForKey x := by
  intro hctl
  obtain ⟨-, -, -, -, -, -, -, hrefused⟩ := h
  have hrun : s.ctl = .running := hrefused (by simpa [State.stopped, hctl] using hstop)
  cases hctl.symm.trans hrun

/-- A stopped core only takes host calls, and these move the time and the keys alone (R293; log 25). -/
theorem step_of_stopped {s t : State} (hwf : s.Wf) (hstop : s.stopped = true) (hstep : step s = .next t) :
    t = { s with time := t.time, keys := t.keys, calls := t.calls } := by
  rw [step_quiet s (.inl hstop)] at hstep
  rcases hostTurn_next s t hstep with ⟨c, rest, rfl⟩ | rfl
  · rcases State.hostCall_cases { s with calls := rest } c with ⟨_, _, -, e⟩ | ⟨_, _, -, e⟩ | ⟨k, x, -, hwait, -, -⟩
    · rw [e]
    · rw [e]; rfl
    · exact absurd hwait (hwf.ctl_ne_waiting hstop x)
  · rfl

/-- Settles O16: all that can differ is the time, the keys and the calls left. -/
theorem stoppedCoreNeverMovesAgain : Obligations.StoppedCoreNeverMovesAgain := by
  intro s t hwf hstop hstep
  have ht := step_of_stopped hwf hstop hstep
  have hadvance : ∀ num den rest, s.calls = .advanceTime num den :: rest →
      t = { s with calls := rest, time := s.time + mkRat num den } := fun num den rest hcalls =>
    Host.Outcome.next.inj (hstep.symm.trans (hostAdvancesTimeBetweenSlots s num den rest hcalls (.inl hstop)))
  generalize t.time = time, t.keys = keys, t.calls = calls at ht
  subst ht
  exact ⟨hstop, rfl, rfl, rfl, rfl, rfl, rfl, rfl, rfl, rfl, rfl, rfl, rfl, rfl, rfl, rfl, rfl, hadvance⟩

/-! ## Slots and the clock -/

/-- `t` has the clock of `s`, its rates and its host's calls (R37, R41, R295). -/
structure SameClock (s t : State) : Prop where
  time : t.time = s.time
  config : t.config = s.config
  calls : t.calls = s.calls
  done : ∀ a, t.done a = s.done a

section Clock

variable {s t : State}

theorem SameClock.of_outside_eq (h : t.outside = s.outside) : SameClock s t where
  time := congrArg Outside.time h
  config := congrArg Outside.config h
  calls := congrArg Outside.calls h
  done := fun
    | .instr => congrArg Outside.nInstr h
    | .tick => congrArg Outside.nTick h
    | .frame => congrArg Outside.nFrame h

theorem SameClock.rate_eq (h : SameClock s t) (a : Stream) : t.rate a = s.rate a := by
  cases a <;> simp only [State.rate, h.config]

theorem SameClock.slotsUpTo_eq (h : SameClock s t) (a : Stream) : t.slotsUpTo a = s.slotsUpTo a := by
  rw [State.slotsUpTo, h.time, h.rate_eq a, State.slotsUpTo]

theorem SameClock.owed_eq (h : SameClock s t) : t.owed = s.owed := by
  have hinstr : t.nInstr = s.nInstr := h.done .instr
  have htick : t.nTick = s.nTick := h.done .tick
  have hframe : t.nFrame = s.nFrame := h.done .frame
  simp only [State.owed, h.slotsUpTo_eq, hinstr, htick, hframe]

theorem SameClock.raise (s : State) (c : FaultCause) : SameClock s (s.raise c) where
  time := rfl
  config := rfl
  calls := rfl
  done := fun a => by cases a <;> rfl

/-- An instruction slot goes on, and leaves the clock alone (R283, R287). -/
theorem instrSlot_sameClock (s : State) : ∃ t, instrSlot s = .next t ∧ SameClock s t := by
  unfold instrSlot
  cases s.ctl with
  | running =>
    obtain ⟨t, ht, hmoves⟩ := cpuStep_moves s
    refine ⟨t, ht, ?_⟩
    rcases hmoves.outside_cases with ⟨hout, -⟩ | ⟨c, rfl⟩
    · exact .of_outside_eq hout
    · exact .raise s c
  | waitingForKey x => exact ⟨s, rfl, .of_outside_eq rfl⟩
  | halted => exact ⟨s, rfl, .of_outside_eq rfl⟩

/-- Every slot goes on, and moves nothing of the clock but its own counter (R286 to R289). -/
theorem processSlot_sameClock (a : Stream) (s : State) : ∃ t, processSlot a s = .next t ∧ SameClock (s.count a) t := by
  cases a with
  | instr => exact instrSlot_sameClock (s.count .instr)
  | tick => exact ⟨_, rfl, .of_outside_eq rfl⟩
  | frame => exact ⟨_, rfl, rfl, rfl, rfl, fun b => by cases b <;> rfl⟩

/-- A move of a core that is not stopped and has picked a slot goes on, and counts that slot (R286). -/
theorem step_sameClock {u : State} {a : Stream} (hlive : s.stopped = false) (hpick : s.pick = some (a, u)) :
    ∃ t, step s = .next t ∧ SameClock (s.count a) t := by
  obtain ⟨t, ht, hclock⟩ := processSlot_sameClock a u
  obtain ⟨-, ties, rfl⟩ := s.pick_due u a hpick
  refine ⟨t, (step_of_pick hlive hpick).trans ht, ?_⟩
  cases a <;> exact ⟨hclock.time, hclock.config, hclock.calls, hclock.done⟩

end Clock

/-- Settles O17: a slot always goes on, so a step that stops is the turn of a host without calls. -/
theorem stepStopsOnlyAStoppedCore : Obligations.StepStopsOnlyAStoppedCore := by
  intro s
  rcases step_cases s _ rfl with ⟨hlive, a, u, hpick, -⟩ | ⟨-, hhost⟩
  · obtain ⟨t, ht, -⟩ := step_sameClock hlive hpick
    simp [ht]
  · rw [hhost]
    rcases hostTurn_cases s with ⟨c, rest, -, e⟩ | ⟨hcalls, ⟨r, hr, e⟩ | ⟨hctl, e⟩ | ⟨-, e⟩⟩
    · simp [e]
    · simp [e, hr, hcalls]
    · simp [e, hctl, hcalls]
    · simp [e]

end Sys2Proof.Machine

/-! PROOFS. Runs: every due slot is processed, and the counters of a run from any load (60_exceptions R275, R286 to
R300). -/

namespace Sys2Proof.Machine

/-! ## Slots owed -/

section Owed

variable {s t : State}

theorem State.Wf.config_legal (h : s.Wf) : s.config.legal := by
  obtain ⟨-, -, hconfig, -⟩ := h
  exact hconfig

/-- No counter is ahead of the time that has passed (R286). -/
theorem State.Wf.done_le (h : s.Wf) (a : Stream) : (s.done a : Rat) ≤ s.time * s.rate a := by
  obtain ⟨-, -, -, -, -, ⟨hinstr, htick, hframe⟩, -⟩ := h
  cases a with
  | instr => exact hinstr
  | tick => exact htick
  | frame => exact hframe

/-- The counter of a stream that is not due is the floor of `T * R` (R286). -/
theorem State.Wf.done_eq_floor (h : s.Wf) {a : Stream} (hdue : s.due a = false) :
    (s.done a : Int) = (s.time * (s.rate a : Rat)).floor := by
  have hlt : s.time * (s.rate a : Rat) < (s.done a : Rat) + 1 := by
    rw [← not_le]
    intro hle
    have htrue : s.due a = true := (s.due_iff a).2 (by simpa [State.nextSlot] using hle)
    rw [hdue] at htrue
    cases htrue
  exact (Int.floor_eq_iff.2 ⟨h.done_le a, hlt⟩).symm

theorem State.Wf.done_eq_slotsUpTo (h : s.Wf) {a : Stream} (hdue : s.due a = false) : s.done a = s.slotsUpTo a := by
  rw [State.slotsUpTo, ← h.done_eq_floor hdue, Int.toNat_natCast]

/-- A due slot is among those whose deadline has come (R286). -/
theorem State.done_lt_slotsUpTo {a : Stream} (hdue : s.due a = true) : s.done a < s.slotsUpTo a := by
  have hfloor : ((s.done a + 1 : Nat) : Int) ≤ (s.time * (s.rate a : Rat)).floor :=
    Rat.le_floor_iff.2 (by exact_mod_cast (s.due_iff a).1 hdue)
  rw [State.slotsUpTo]
  omega

/-- A due slot that is counted is owed no longer. -/
theorem State.owed_count {a : Stream} (hdue : s.due a = true) : (s.count a).owed + 1 = s.owed := by
  have hlt := State.done_lt_slotsUpTo hdue
  have hslots : ∀ b, (s.count a).slotsUpTo b = s.slotsUpTo b := fun b => by cases a <;> cases b <;> rfl
  simp only [State.owed, hslots]
  cases a <;> (simp only [State.done] at hlt; simp only [State.count]; omega)

/-- `k` steps from `s` process slots it owes and lead to the quiet state `t` (R286, R293). -/
structure Drains (s : State) (k : Nat) (t : State) : Prop where
  run : Host.Core.run Sys2Proof.core k s = .next t
  quiet : t.Quiet
  time : t.time = s.time
  calls : t.calls = s.calls
  owed : k ≤ s.owed
  all : t.stopped = false → k = s.owed ∧ ∀ a, t.done a = s.slotsUpTo a

/-- A run that begins with a step that goes on. -/
theorem run_succ {k : Nat} (hstep : step s = .next t) :
    Host.Core.run Sys2Proof.core (k + 1) s = Host.Core.run Sys2Proof.core k t := by
  have hcore : Host.Core.step Sys2Proof.core s = .next t := hstep
  simp only [Host.Core.run, hcore]

/-- A core with no slot to process has drained: a live one owes nothing. -/
theorem Drains.of_quiet (hwf : s.Wf) (hquiet : s.Quiet) : Drains s 0 s where
  run := rfl
  quiet := hquiet
  time := rfl
  calls := rfl
  owed := Nat.zero_le _
  all := fun hlive => by
    have hdue : ∀ a, s.due a = false := hquiet.resolve_left (by simp [hlive])
    have hdone : ∀ a, s.done a = s.slotsUpTo a := fun a => hwf.done_eq_slotsUpTo (hdue a)
    refine ⟨?_, hdone⟩
    simp only [State.owed, ← hdone, State.done, Nat.sub_self, Nat.add_zero]

/-- One slot, and then the rest. -/
theorem Drains.cons {a : Stream} {u : State} {k : Nat} (hdue : s.due a = true) (hstep : step s = .next u)
    (hclock : SameClock (s.count a) u) (h : Drains u k t) : Drains s (k + 1) t := by
  have howed : u.owed + 1 = s.owed := by rw [hclock.owed_eq, State.owed_count hdue]
  have hcount : (s.count a).time = s.time ∧ (s.count a).calls = s.calls ∧
      ∀ b, (s.count a).slotsUpTo b = s.slotsUpTo b := by
    cases a <;> exact ⟨rfl, rfl, fun b => by cases b <;> rfl⟩
  obtain ⟨htime, hcalls, hslots⟩ := hcount
  refine ⟨(run_succ hstep).trans h.run, h.quiet, h.time.trans (hclock.time.trans htime),
    h.calls.trans (hclock.calls.trans hcalls), howed ▸ Nat.succ_le_succ h.owed, fun hlive => ?_⟩
  obtain ⟨hk, hdone⟩ := h.all hlive
  exact ⟨by omega, fun b => (hdone b).trans ((hclock.slotsUpTo_eq b).trans (hslots b))⟩

/-- Every core of the invariant drains, by induction on the slots it owes. -/
theorem exists_drains (n : Nat) (s : State) (hwf : s.Wf) (hn : s.owed = n) : ∃ k t, Drains s k t := by
  induction n generalizing s with
  | zero =>
    refine ⟨0, s, .of_quiet hwf (.inr fun a => ?_)⟩
    by_contra hdue
    have howed := State.owed_count (s := s) (a := a) (by simpa using hdue)
    omega
  | succ n ih =>
    by_cases hquiet : s.Quiet
    · exact ⟨0, s, .of_quiet hwf hquiet⟩
    · obtain ⟨hlive, b, hb⟩ : s.stopped = false ∧ ∃ b, s.due b = true := by simpa [State.Quiet] using hquiet
      have hconfig : s.config.legal := hwf.config_legal
      obtain ⟨a, u, hpick⟩ := (pickedSlotIsDueAndSoonest s hconfig).2 b ((s.due_iff_deadline hconfig b).1 hb)
      obtain ⟨t, hstep, hclock⟩ := step_sameClock hlive hpick
      obtain ⟨hdue, -⟩ := s.pick_due u a hpick
      have howed : t.owed = n := by
        rw [hclock.owed_eq]
        exact Nat.succ.inj ((State.owed_count hdue).trans hn)
      obtain ⟨k, v, hdrains⟩ := ih t (stepKeepsTheInvariant s t hwf hstep) howed
      exact ⟨k + 1, v, hdrains.cons hdue hstep hclock⟩

end Owed

/-- Settles O18, stream by stream. -/
theorem quietCountersAreFloors : Obligations.QuietCountersAreFloors :=
  fun _ hwf hquiet a => hwf.done_eq_floor (hquiet a)

/-- Settles O19: the core drains what it owes. -/
theorem dueSlotsAreAllProcessed : Obligations.DueSlotsAreAllProcessed := by
  intro s hwf
  obtain ⟨k, t, h⟩ := exists_drains s.owed s hwf rfl
  exact ⟨k, t, h.owed, h.run, h.quiet, h.time, h.calls, h.all⟩

/-! ## Runs from a load -/

/-- What every step keeps holds after any run. -/
theorem run_keeps {P : State → Prop} (hkeep : ∀ s t, P s → step s = .next t → P t) (k : Nat) (s t : State) (hs : P s)
    (hrun : Host.Core.run Sys2Proof.core k s = .next t) : P t := by
  induction k generalizing s with
  | zero => cases hrun; exact hs
  | succ k ih =>
    cases hstep : step s with
    | next u => exact ih u (hkeep s u hs hstep) ((run_succ hstep).symm.trans hrun)
    | fault f =>
      have hcore : Host.Core.step Sys2Proof.core s = .fault f := hstep
      simp [Host.Core.run, hcore] at hrun
    | refused r =>
      have hcore : Host.Core.step Sys2Proof.core s = .refused r := hstep
      simp [Host.Core.run, hcore] at hrun

/-- A core exists only after a legal configuration, and it has been loaded (R304, R331). -/
theorem boot_some {p : Params} {c : ConfigRequest} {image : List Byte} {s : State} (h : boot p c image = some s) :
    c.legal = true ∧ s = (State.fresh p (heldConfig c)).load image := by
  have hlegal : c.legal = true := by
    by_contra hbad
    simp [boot, (create_eq_none_iff p c).2 hbad] at h
  rw [boot, create_of_legal p hlegal, Option.map_some, Option.some_inj] at h
  exact ⟨hlegal, h.symm⟩

/-- The load of too long an image is a fault and nothing else (R275). -/
theorem State.load_of_too_large (s : State) (image : List Byte) (h : capacity s.params < image.length) :
    s.load image = s.raise (.programTooLarge image.length) := if_pos h

/-- A load keeps the invariant of a core just created, whether the image fits or not (R300). -/
theorem State.Wf.load {s : State} (h : s.Wf) (hfault : s.fault = none) (hrefused : s.refused = none)
    (image : List Byte) : (s.load image).Wf := by
  by_cases hfits : image.length ≤ capacity s.params
  · obtain ⟨hmem, hsp, hcfg, hpar, htime, hcount, -, -⟩ := h
    have htop : s.params.loadOffset + image.length ≤ memSize := by
      have hoffset : s.params.loadOffset ≤ memSize := hpar.2
      rw [capacity] at hfits
      omega
    have hmem' := s.writeBytes_wf s.params.loadOffset image hmem htop
    rw [State.writeBytes_params] at hmem'
    rw [State.load_of_fits s image hfits]
    exact ⟨hmem', hsp, hcfg, hpar, htime, hcount, by simp [hfault], fun _ => rfl⟩
  · rw [State.load_of_too_large s image (by omega)]
    exact h.raise hrefused _

/-- A load counts no slot and sends nothing but the report of its fault (R275, R300, R306). -/
theorem State.SignalsAgree.load {s : State} (h : s.SignalsAgree) (hfault : s.fault = none) (image : List Byte) :
    (s.load image).SignalsAgree ∧ SameClock s (s.load image) := by
  by_cases hfits : image.length ≤ capacity s.params
  · rw [State.load_of_fits s image hfits]
    exact ⟨h, .of_outside_eq rfl⟩
  · rw [State.load_of_too_large s image (by omega)]
    exact ⟨h.raise hfault _, .raise s _⟩

/-- The seconds that have passed and those that the host's calls still bring (R286). -/
def State.totalTime (s : State) : Rat := s.time + (s.calls.map HostCall.seconds).sum

theorem State.hostCall_time_calls (s : State) (c : HostCall) :
    (s.hostCall c).time = s.time + c.seconds ∧ (s.hostCall c).calls = s.calls := by
  rcases s.hostCall_cases c with ⟨num, den, rfl, e⟩ | ⟨k, p, rfl, e⟩ | ⟨k, x, rfl, -, -, e⟩ <;> rw [e]
  · exact ⟨rfl, rfl⟩
  · exact ⟨(add_zero s.time).symm, rfl⟩
  · exact ⟨(add_zero s.time).symm, rfl⟩

theorem SameClock.totalTime_eq {s t : State} (h : SameClock s t) : t.totalTime = s.totalTime := by
  rw [State.totalTime, h.time, h.calls, State.totalTime]

/-- A step takes its seconds from the host's calls: a slot leaves time and calls alone (R286, R295). -/
theorem totalTime_of_step {s t : State} (hstep : step s = .next t) : t.totalTime = s.totalTime := by
  rcases step_cases s _ hstep with ⟨hlive, a, u, hpick, -⟩ | ⟨-, hhost⟩
  · obtain ⟨t', ht', hclock⟩ := step_sameClock hlive hpick
    cases hstep.symm.trans ht'
    rw [hclock.totalTime_eq]
    cases a <;> rfl
  · rcases hostTurn_cases s with ⟨c, rest, hcalls, e⟩ | ⟨-, ⟨r, -, e⟩ | ⟨-, e⟩ | ⟨-, e⟩⟩
    · cases hhost.trans e
      obtain ⟨htime, hrest⟩ := State.hostCall_time_calls { s with calls := rest } c
      rw [State.totalTime, htime, hrest, State.totalTime, hcalls, List.map_cons, List.sum_cons, add_assoc]
    · cases hhost.trans e
    · cases hhost.trans e
    · cases hhost.trans e; rfl

/-- What a run from the load `s` with the host calls `calls` keeps. -/
structure Running (s : State) (calls : List HostCall) (t : State) : Prop where
  wf : t.Wf
  signals : t.SignalsAgree
  config : t.config = s.config
  total : t.totalTime = (calls.map HostCall.seconds).sum

theorem Running.step {s t u : State} {calls : List HostCall} (h : Running s calls t) (hstep : step t = .next u) :
    Running s calls u where
  wf := stepKeepsTheInvariant t u h.wf hstep
  signals := stepKeepsTheSignalsAgreed t u h.wf h.signals hstep
  config := (configurationNeverChanges t u hstep).1.trans h.config
  total := (totalTime_of_step hstep).trans h.total

/-- The load of a created core, with the calls its host will make. -/
theorem running_of_boot {p : Params} {c : ConfigRequest} {image : List Byte} {s : State} (hp : p.legal)
    (h : boot p c image = some s) (calls : List HostCall) : Running s calls { s with calls := calls } := by
  obtain ⟨hlegal, rfl⟩ := boot_some h
  have hwf := (State.fresh_wf p (heldConfig c) hp (heldConfig_legal hlegal)).load rfl rfl image
  have hfresh : (State.fresh p (heldConfig c)).SignalsAgree := ⟨rfl, rfl⟩
  obtain ⟨hsignals, hclock⟩ := hfresh.load rfl image
  exact ⟨hwf, hsignals, rfl, (congrArg (· + _) hclock.time).trans (zero_add _)⟩

/-- Settles O20: a run keeps the invariant, the signals and the total time, and a quiet core's counters are floors. -/
theorem slotCountsDependOnlyOnTotalTime : Obligations.SlotCountsDependOnlyOnTotalTime := by
  intro p c image s t calls k hp hboot hrun hlive hcalls hquiet
  obtain ⟨hwf, ⟨hframes, -⟩, hconfig, htotal⟩ :=
    run_keeps (P := Running s calls) (fun _ _ => Running.step) k _ t (running_of_boot hp hboot calls) hrun
  have htime : t.time = (calls.map HostCall.seconds).sum := by
    simpa [State.totalTime, hcalls] using htotal
  have hinstr := quietCountersAreFloors t hwf hquiet .instr
  have htick := quietCountersAreFloors t hwf hquiet .tick
  have hframe := quietCountersAreFloors t hwf hquiet .frame
  simp only [State.done, State.rate, hconfig] at hinstr htick hframe
  exact ⟨htime, hinstr, htick, hframe, hframes ▸ hframe⟩

/-- A core that stopped before it processed a slot. -/
structure NeverStarted (s : State) : Prop where
  wf : s.Wf
  stopped : s.stopped = true
  done : ∀ a, s.done a = 0

theorem NeverStarted.step {s t : State} (h : NeverStarted s) (hstep : step s = .next t) : NeverStarted t := by
  have ht := step_of_stopped h.wf h.stopped hstep
  refine ⟨stepKeepsTheInvariant s t h.wf hstep, ?_, fun a => ?_⟩
  · rw [ht]
    exact h.stopped
  · rw [ht, ← h.done a]
    cases a <;> rfl

/-- Settles O59: the load is a fault, and a stopped core counts no slot. -/
theorem tooLargeImageHaltsAtLoad : Obligations.TooLargeImageHaltsAtLoad := by
  intro p c image hp hc hlong
  have hload := State.load_of_too_large (State.fresh p (heldConfig c)) image hlong
  have hboot : boot p c image = some ((State.fresh p (heldConfig c)).raise (.programTooLarge image.length)) := by
    rw [boot, create_of_legal p hc, Option.map_some, hload]
  have hwf := (State.fresh_wf p (heldConfig c) hp (heldConfig_legal hc)).raise rfl (.programTooLarge image.length)
  refine ⟨_, hboot, rfl, rfl, rfl, fun calls k t hrun => ?_⟩
  have hnever : NeverStarted t := by
    refine run_keeps (fun _ _ => NeverStarted.step) k _ t ⟨?_, rfl, fun a => ?_⟩ hrun
    · exact hwf
    · cases a <;> rfl
  exact ⟨hnever.done .instr, hnever.done .tick, hnever.done .frame⟩

end Sys2Proof.Machine
